-- ==== Sys2Proof/Word.lean ====
section
/-!
DEFINITION. The machine words of the TPMS Manchester decoder: the command word, the symbol code, the numbers the block
counts and measures with. A bit of the spec (R13) is a `Bool`: `true` is 1 and "high", `false` is 0 and "low".
-/

namespace Sys2Proof

/-- One bit (R13): level 1, "high", is `true`. -/
abbrev Bit := Bool

/-- A duration in microseconds, `u32` (R31). -/
abbrev Duration := BitVec 32

/-- A 16-bit unsigned count, `u16` (R15, R21, R24). -/
abbrev Count := BitVec 16

/-- One 35-bit command word (R46). -/
abbrev CmdWord := BitVec 35

/-- One 3-bit symbol code `R, Lg, Lv` (R52). -/
abbrev SymCode := BitVec 3

end Sys2Proof
end

