-- ==== Sys2Proof/Config.lean ====
section
/-!
DEFINITION. The configuration record `cfg` (R9, R10), as plain data, and the two parameters that the spec leaves open
as constants without a body. What a configuration means (its `CHECK`, its `BATTERY`, whether it is admitted) stands in
Sys2Proof/Machine/Configuration.lean.
-/

namespace Sys2Proof

/-- `PREAMBLE_LEN` (R9): left open as the spec leaves it for `SAMPLE`, or a given `u16`. -/
inductive PreambleLen where
  /-- OPEN, no default (D14): read as an uninterpreted number from 1 to 65535. -/
  | openParam
  /-- a protocol's or a test configuration's own value. -/
  | given (n : BitVec 16)
deriving DecidableEq, Repr

/-- `CHECK` (R9, R97) as plain data. Every predicate of a frame value is `accepts l` for some list `l`; the other
three are the open parameter and the two predicates the spec itself names. -/
inductive CheckSel where
  /-- OPEN (D20): an uninterpreted predicate of which nothing is known but the single-bit-error law (R98). -/
  | openParam
  /-- `CHECK_ODD` (R105): this spec's stand-in, for its test configurations only. -/
  | oddParity
  /-- the constant `true`, which the source's reference validator amounts to (R99); no admitted configuration has it. -/
  | alwaysAccept
  /-- the predicate that accepts exactly the listed frame values. -/
  | accepts (frames : List Nat)
deriving DecidableEq, Repr

/-- `BATTERY` (R9, R104) as plain data: the frame values read as Ok, those read as Low; every other is Unknown. -/
structure BatteryTable where
  okFrames : List Nat
  lowFrames : List Nat
deriving DecidableEq, Repr

/-- The configuration record `cfg` of R9, one field per row of its table. No command writes a field (R23). -/
structure Cfg where
  /-- `SHORT_US`, nominal short half-symbol duration. -/
  shortUs : BitVec 32
  /-- `LONG_US`, nominal long half-symbol duration. -/
  longUs : BitVec 32
  /-- `TOLERANCE_US`, the half-width of every window (R60). -/
  toleranceUs : BitVec 32
  /-- `MIN_BITS`, the payload bit count of a frame (R91). -/
  minBits : BitVec 16
  /-- `PREAMBLE_LEN`. -/
  preambleLen : PreambleLen
  /-- `PREAMBLE_BIT`, the value every preamble bit must equal. -/
  preambleBit : Bool
  /-- `INVERT_BITS` (R75). -/
  invertBits : Bool
  /-- `MAN_INIT_LEVEL` (R77). -/
  manInitLevel : Bool
  /-- `ACC_WIDTH`, the width of the bit accumulator (R24). -/
  accWidth : Nat
  /-- `CHECK` (R97). -/
  checkSel : CheckSel
  /-- `ID_SHIFT` -/
  idShift : Nat
  /-- `ID_WIDTH` -/
  idWidth : Nat
  /-- `P_SHIFT` -/
  pShift : Nat
  /-- `P_WIDTH` -/
  pWidth : Nat
  /-- `T_SHIFT` -/
  tShift : Nat
  /-- `T_WIDTH` -/
  tWidth : Nat
  /-- `TEMP_BIAS` -/
  tempBias : Nat
  /-- `BATTERY` (R104). -/
  batteryTable : BatteryTable
deriving DecidableEq, Repr

/-- The open parameter `PREAMBLE_LEN` of `SAMPLE`, less one (R9, D14): uninterpreted, so that the parameter is some
number from 1 to 65535 (R135 item 3) and nothing more is known of it. Log entry 2. -/
opaque Config.preambleLenLessOne : Fin 65535

/-- The uninterpreted predicate behind the open parameter `CHECK` (R97, D20): `Cfg.check` keeps of it what the
single-bit-error law of R98 allows, and nothing more is known of it. Log entry 3. -/
opaque Config.checkRaw : (w : Nat) → BitVec w → Bool

end Sys2Proof
end

