-- ==== Sys2Proof/Machine/Configuration.lean ====
section
/-!
DEFINITION. What a configuration means: `SAMPLE`, the values of its two open parameters, `CHECK`, `BATTERY`, and
admission (R9, R97 to R99, R104, R105, R135).
-/

namespace Sys2Proof

/-- `SAMPLE` (R9), with `PREAMBLE_LEN` and `CHECK` open. -/
def Cfg.sample : Cfg where
  shortUs := 123#32
  longUs := 244#32
  toleranceUs := 61#32
  minBits := 60#16
  preambleLen := .openParam
  preambleBit := false
  invertBits := false
  manInitLevel := false
  accWidth := 64
  checkSel := .openParam
  idShift := 18
  idWidth := 24
  pShift := 9
  pWidth := 9
  tShift := 0
  tWidth := 8
  tempBias := 50
  batteryTable := ⟨[], []⟩

/-- `PREAMBLE_LEN` as a number; the open parameter is uninterpreted. -/
def Cfg.preLen (c : Cfg) : Nat :=
  match c.preambleLen with
  | .openParam => Config.preambleLenLessOne.val + 1
  | .given n => n.toNat

/-- `MIN_BITS` as a number: the width of the frame value. -/
def Cfg.frameBits (c : Cfg) : Nat := c.minBits.toNat

/-- `popcount(v)`, the number of one bits (R11). -/
def popcount {w : Nat} (v : BitVec w) : Nat := (List.range w).countP fun i => v.getLsbD i

/-- Of a predicate, what the single-bit-error law of R98 allows: accept `f` only when no frame value one bit away is
accepted. A predicate that meets the law is left as it is, and every result meets the law, so over every `raw` this is
every predicate that R98 admits and no other. -/
def lawfulPart {w : Nat} (raw : BitVec w → Bool) (f : BitVec w) : Bool :=
  raw f && (List.range w).all fun i => !raw (f ^^^ BitVec.twoPow w i)

/-- `CHECK(f)` (R97): a function of the frame value alone. -/
def Cfg.check (c : Cfg) (f : BitVec c.frameBits) : Bool :=
  match c.checkSel with
  | .openParam => lawfulPart (Config.checkRaw c.frameBits) f
  | .oddParity => popcount f % 2 == 1
  | .alwaysAccept => true
  | .accepts frames => frames.contains f.toNat

/-- The single-bit-error law of R98, for this configuration's `CHECK`. -/
def Cfg.CheckLaw (c : Cfg) : Prop :=
  ∀ f : BitVec c.frameBits, c.check f = true →
    ∀ i < c.frameBits, c.check (f ^^^ BitVec.twoPow c.frameBits i) = false

/-- Whether `CHECK` meets the law of R98, decided from the configuration's data. The open parameter is bound by the law
and meets it. -/
def Cfg.checkLawOk (c : Cfg) : Bool :=
  match c.checkSel with
  | .openParam => true
  | .oddParity => true
  | .alwaysAccept => c.frameBits == 0
  | .accepts frames =>
    frames.all fun a => decide (2 ^ c.frameBits ≤ a) ||
      (List.range c.frameBits).all fun i => !frames.contains (a ^^^ 2 ^ i)

/-- R135 item 3, `1 <= PREAMBLE_LEN <= 65535`. The upper bound is the field's width, and the open parameter is bound by
the item and meets it. -/
def Cfg.preLenOk (c : Cfg) : Bool :=
  match c.preambleLen with
  | .openParam => true
  | .given n => decide (1 ≤ n.toNat)

/-- R135: the configuration is admitted. In item 7 the bound `2^T_WIDTH - 1 - TEMP_BIAS <= 32767` is written without a
subtraction; item 9 is the type of the field. -/
def Cfg.admitted (c : Cfg) : Bool :=
  decide (1 ≤ c.toleranceUs.toNat) &&
  (decide (c.shortUs.toNat < c.longUs.toNat) &&
    decide (c.shortUs.toNat + 2 * c.toleranceUs.toNat ≤ c.longUs.toNat + 1)) &&
  c.preLenOk &&
  (decide (1 ≤ c.frameBits) && decide (c.frameBits ≤ c.accWidth) && decide (c.accWidth ≤ 65535)) &&
  (decide (c.idWidth ≤ 24) && decide (c.idShift + c.idWidth ≤ c.frameBits)) &&
  (decide (c.pWidth ≤ 16) && decide (c.pShift + c.pWidth ≤ c.frameBits)) &&
  (decide (c.tShift + c.tWidth ≤ c.frameBits) && decide (c.tempBias ≤ 32768) &&
    decide (2 ^ c.tWidth ≤ 32768 + c.tempBias)) &&
  c.checkLawOk

end Sys2Proof
end

