-- ==== Sys2Proof/Syntax.lean ====
section
/-!
DEFINITION. The inputs of the block: the four commands of its command port (R47) and the five symbols of the line
decoder's own input (R52), one constructor of `Instr` per row of spec/opcode_table.json; the words that spell them.
-/

namespace Sys2Proof

/-- One constructor per row of the opcode table. -/
inductive Instr where
  /-- FEED (R109): one edge event, its level and the duration it was held. -/
  | feed (level : Bool) (duration : BitVec 32)
  /-- RESET (R110). -/
  | reset
  /-- ALLOC (R111). -/
  | alloc
  /-- FREE (R112). -/
  | free
  /-- symbol ShortLow (R69), on the line decoder's own input. -/
  | shortLow
  /-- symbol ShortHigh (R70). -/
  | shortHigh
  /-- symbol LongLow (R71). -/
  | longLow
  /-- symbol LongHigh (R72). -/
  | longHigh
  /-- symbol Reset (R73). -/
  | resetSymbol
deriving DecidableEq, Repr

/-- The classifier's output and the line decoder's input alphabet (R14, R52). -/
inductive Symbol where
  | shortLow
  | shortHigh
  | longLow
  | longHigh
  | reset
deriving DecidableEq, Repr

/-- One word presented on an input: a whole command word on the command port (R35, R46), or a symbol code on the line
decoder's sub-block input (R52). -/
inductive PortWord where
  | cmd (w : BitVec 35)
  | sym (c : BitVec 3)
deriving DecidableEq, Repr

/-- Why a word spells nothing (R49, R52). -/
inductive Reject where
  /-- a RESET, ALLOC or FREE word with a bit of 32:0 set (R49). -/
  | reservedOperandBits
  /-- a symbol code `101`, `110` or `111` (R52). -/
  | reservedSymbol
deriving DecidableEq, Repr

/-- What the decoder answers: an instruction, or the name of the rule that refuses the word. -/
inductive Decoded where
  | instr (i : Instr)
  | reject (r : Reject)
deriving DecidableEq, Repr

end Sys2Proof
end

