-- ==== Sys2Proof/Machine/State.lean ====
section
/-!
DEFINITION. The state of the machine: the configuration it was built with, the seven fields of one decoder instance
(R15), and the model's own fields (the words waiting on its inputs, the signals of the last step, the stand-alone line
decoder that the symbol input drives).
-/

namespace Sys2Proof.Machine

/-- The frame state (R18). The code `11` cannot be written. -/
inductive Frame where
  | reset
  | checkPreamble
  | decodingPayload
deriving DecidableEq, Repr

/-- The line decoder's phase (R15, R19): AWAIT (AwaitingFirstHalf) or HAVE (HaveFirstHalf). -/
inductive ManPhase where
  | awaitingFirstHalf
  | haveFirstHalf
deriving DecidableEq, Repr

/-- A line-decoder state `(man_phase, man_lvl)` (R19). -/
structure ManState where
  phase : ManPhase
  lvl : Bool
deriving DecidableEq, Repr

/-- The battery states of a record (R54, R55). -/
inductive Battery where
  | ok
  | low
  | unknown
deriving DecidableEq, Repr

/-- The record that a valid frame yields (R101). `rawBits` is the frame value, `ACC_WIDTH` bits wide on the port. -/
structure Record where
  sensorId : BitVec 32
  pressure : BitVec 16
  temperature : BitVec 16
  battery : Battery
  rawBits : Nat
  rawCount : BitVec 16
deriving DecidableEq, Repr

/-- The output port (R54). `recRawBits` is `ACC_WIDTH` bits wide; the width is a parameter, so the field is a number and
`State.Inv` (Safety.lean) bounds it. -/
structure OutPort where
  outValid : Bool
  recSensorId : BitVec 32
  recPressure : BitVec 16
  recTemperature : BitVec 16
  recBattery : BitVec 2
  recRawBits : Nat
  recRawCount : BitVec 16
deriving DecidableEq, Repr

/-- Why a frame attempt ended (R118). Not written to any state or port. -/
inductive Cause where
  | frameComplete
  | timingMismatch
  | illegalTransition
  | preambleMismatch
  | overflow
  | checkFail
  | explicitReset
deriving DecidableEq, Repr

/-- The block has no fault outcome ("The block itself has no fault outcome", R108; R117, R121), so this type has no
constructor: no meaning can answer with a fault. -/
inductive Fault where
deriving DecidableEq, Repr

/-- The refusal reasons. Besides the host's `notModelled` they are the closed list of R108. -/
inductive Refusal where
  /-- Raised by exec for an instruction with no meaning yet; no arm is left that raises it. Safe: the model stops. -/
  | notModelled (mnemonic : String)
  /-- Raised by step for every command when the configuration breaks R135. Safe: the spec refuses too (R108). -/
  | badConfig
  /-- Raised by step for a RESET, ALLOC or FREE word with a bit of 32:0 set (R49). Safe: the spec refuses too. -/
  | reservedOperandBits
  /-- Raised by step for symbol code 101, 110 or 111 on the line decoder's input (R52, R68). Safe: the spec refuses
  too. -/
  | reservedSymbol
  /-- Raised by FEED, RESET and FREE when no instance is allocated (R109, R110, R112). Safe: the spec refuses too. -/
  | notAllocated
deriving DecidableEq, Repr

/-- The state. `cfg` is the parameter of R9, carried here because a step is given nothing but a state; no step writes
it (log entry 1). The seven fields from `live` to `accCount` are the instance (R15). The rest is the model's own. -/
structure State where
  /-- the configuration the instance is built with (R9, R23). -/
  cfg : Cfg
  /-- `s.live`: an instance is allocated. -/
  live : Bool
  /-- `s.frame`. -/
  frame : Frame
  /-- `s.man_phase`. -/
  manPhase : ManPhase
  /-- `s.man_lvl`. -/
  manLvl : Bool
  /-- `s.pre_count`, the preamble bits accepted (R21). -/
  preCount : BitVec 16
  /-- `s.acc_value`, `ACC_WIDTH` bits (R24): a number, since the width is a parameter; every write reduces it modulo
  `2^ACC_WIDTH`, and `State.Inv` states the bound. -/
  accValue : Nat
  /-- `s.acc_count`, the payload bits appended (R24). -/
  accCount : BitVec 16
  /-- the words waiting on the inputs, in order of arrival (R39). Model's own (log entry 4). -/
  input : List PortWord
  /-- the output port as the last step drove it (R113). Model's own (log entry 5). -/
  out : OutPort
  /-- the state of the stand-alone line decoder that the symbol input drives (R66). Model's own (log entry 6). -/
  ld : ManState
  /-- the stand-alone line decoder's `out` of the last step (R66). Model's own (log entry 6). -/
  ldBit : Option Bool
  /-- the stand-alone line decoder's `viol` of the last step (R66). Model's own (log entry 6). -/
  ldViol : Bool
deriving DecidableEq, Repr

/-- Power-on (R28, R133): `live = 0` and the other fields at `INIT(cfg)`, for the sample protocol's configuration
(R9); nothing waits on an input and no signal is driven. -/
def State.reset : State where
  cfg := Cfg.sample
  live := false
  frame := .reset
  manPhase := .awaitingFirstHalf
  manLvl := Cfg.sample.manInitLevel
  preCount := 0#16
  accValue := 0
  accCount := 0#16
  input := []
  out := ⟨false, 0#32, 0#16, 0#16, 0b00#2, 0, 0#16⟩
  ld := ⟨.awaitingFirstHalf, Cfg.sample.manInitLevel⟩
  ldBit := none
  ldViol := false

end Sys2Proof.Machine
end

