-- ==== Sys2Proof/Machine/Operands.lean ====
section
/-!
DEFINITION. The operands of the commands. FEED has two, a level and a duration, taken from the word as they stand
(R48: nothing is scaled, shifted or sign-extended); no other instruction has one. Durations and the timing constants
enter arithmetic as exact numbers (R11, R31).
-/

namespace Sys2Proof.Machine

/-- A duration as the exact number that every comparison uses (R31). -/
def durationValue (d : BitVec 32) : Nat := d.toNat

/-- `absdiff(a, b)`, computed exactly (R11). -/
def absdiff (a b : Nat) : Nat := if b ≤ a then a - b else b - a

/-- The field of a frame value at `shift`, `width` bits wide: `(f >> shift) & mask_width` (R11, R101). -/
def fieldOf (f shift width : Nat) : Nat := (f >>> shift) &&& (2 ^ width - 1)

/-- The code of a frame state (R18). -/
def Frame.code : Frame → BitVec 2
  | .reset => 0b00#2
  | .checkPreamble => 0b01#2
  | .decodingPayload => 0b10#2

/-- The code of a line-decoder state, phase bit then level bit (R53). -/
def ManState.code (m : ManState) : BitVec 2 :=
  (match m.phase with
    | .awaitingFirstHalf => 0b0#1
    | .haveFirstHalf => 0b1#1) ++ BitVec.ofBool m.lvl

/-- The code of an abort cause (R118). -/
def Cause.code : Cause → Nat
  | .frameComplete => 0
  | .timingMismatch => 1
  | .illegalTransition => 2
  | .preambleMismatch => 3
  | .overflow => 4
  | .checkFail => 5
  | .explicitReset => 6

end Sys2Proof.Machine
end

