-- ==== Sys2Proof/Machine/Flags.lean ====
section
/-!
DEFINITION. What a step reports. The block has no flag and no condition code (R22); a frame's outcome is seen on the
output port only (R54, R55, R113).
-/

namespace Sys2Proof.Machine

/-- The code of a battery state on the port (R55). The code `11` is never driven. -/
def Battery.code : Battery → BitVec 2
  | .ok => 0b00#2
  | .low => 0b01#2
  | .unknown => 0b10#2

/-- The port with no record on it: `out_valid = 0` and every other field 0 (R54, R113). -/
def OutPort.idle : OutPort := ⟨false, 0#32, 0#16, 0#16, 0b00#2, 0, 0#16⟩

/-- The port with a record on it (R54). -/
def OutPort.carrying (r : Record) : OutPort :=
  ⟨true, r.sensorId, r.pressure, r.temperature, r.battery.code, r.rawBits, r.rawCount⟩

/-- The port as a step with output `out` drives it (R113). -/
def OutPort.ofRecord : Option Record → OutPort
  | none => OutPort.idle
  | some r => OutPort.carrying r

end Sys2Proof.Machine
end

