-- ==== Sys2Proof/Machine/Ops.lean ====
section
/-!
DEFINITION. The named operations on the state that the meanings share: the entry into Reset, which every reset, abort
and frame end writes (R27, R87), the line decoder's fields, and the driving of the output signals. The block has no
memory (R30), no trap and no return from one (R121, R122): what a processor does to take an exception, this block does
with `State.abort`, which saves nothing and puts the instance in its initial state.
-/

namespace Sys2Proof.Machine

/-- The line decoder's initial state `I` (R77). -/
def manInit (c : Cfg) : ManState := ⟨.awaitingFirstHalf, c.manInitLevel⟩

/-- The instance's line-decoder state (R19). -/
def State.man (s : State) : ManState := ⟨s.manPhase, s.manLvl⟩

/-- Write the instance's line-decoder state. -/
def State.setMan (s : State) (m : ManState) : State := { s with manPhase := m.phase, manLvl := m.lvl }

/-- `enter_reset()` (R87): write `INIT(cfg)` (R27) to the six fields other than `s.live`. -/
def State.enterReset (s : State) : State :=
  { s with
    frame := .reset
    manPhase := .awaitingFirstHalf
    manLvl := s.cfg.manInitLevel
    preCount := 0#16
    accValue := 0
    accCount := 0#16 }

/-- The start condition's write (R83): `INIT(cfg)` with the frame state CheckPreamble. -/
def State.startFrame (s : State) : State := { s.enterReset with frame := .checkPreamble }

/-- Drive the output port for this step (R113); the stand-alone line decoder drives nothing in a command's step. -/
def State.drive (s : State) (r : Option Record) : State :=
  { s with out := OutPort.ofRecord r, ldBit := none, ldViol := false }

/-- Drive the stand-alone line decoder's signals for this step (R66); no record is on the output port. -/
def State.driveLine (s : State) (bit : Option Bool) (viol : Bool) : State :=
  { s with out := OutPort.idle, ldBit := bit, ldViol := viol }

/-- What one frame step gives: the state, the record if any (`out` of R92), and the cause that ended the frame attempt
if one did (R118). The cause is written to no state and no port. -/
structure FrameResult where
  state : State
  record : Option Record
  cause : Option Cause
deriving DecidableEq, Repr

/-- `abort(c)` (R87, R121): `enter_reset()` with no record. -/
def State.abort (s : State) (c : Cause) : FrameResult := ⟨s.enterReset, none, some c⟩

end Sys2Proof.Machine
end

