-- ==== Sys2Proof/Machine/Classifier.lean ====
section
/-!
DEFINITION. The pulse classifier (R59 to R65): combinational, no state.
-/

namespace Sys2Proof.Machine

/-- `match(d, ref, tol)`, the tolerance-window test (R59): strict, in exact arithmetic. -/
def matchWindow (d ref tol : Nat) : Bool := decide (absdiff d ref < tol)

/-- The symbol of a short half-symbol of level `l` (R61, R67). -/
def shortSymbol (l : Bool) : Symbol := if l then .shortHigh else .shortLow

/-- The symbol of a long half-symbol of level `l` (R61, R67). -/
def longSymbol (l : Bool) : Symbol := if l then .longHigh else .longLow

/-- `classify(level, d)` (R61): the short window first (R62), then the long one, else Reset. -/
def classify (c : Cfg) (level : Bool) (d : BitVec 32) : Symbol :=
  if matchWindow (durationValue d) c.shortUs.toNat c.toleranceUs.toNat then shortSymbol level
  else if matchWindow (durationValue d) c.longUs.toNat c.toleranceUs.toNat then longSymbol level
  else .reset

/-- `is_start(level, d)` (R63): `2 * LONG_US` is exact. -/
def isStart (c : Cfg) (level : Bool) (d : BitVec 32) : Bool :=
  level && matchWindow (durationValue d) (2 * c.longUs.toNat) c.toleranceUs.toNat

end Sys2Proof.Machine
end

