-- ==== Sys2Proof/Machine/LineDecoder.lean ====
section
/-!
DEFINITION. The Manchester line decoder (R66 to R77, R81): its transition function, and the five symbols of its
stand-alone input, one definition each.
-/

namespace Sys2Proof.Machine

/-- What `man_step` answers (R66): the next state, the emitted bit before polarity inversion, the violation signal. -/
structure ManResult where
  next : ManState
  out : Option Bool
  viol : Bool
deriving DecidableEq, Repr

/-- A coding violation (R67, R81): back to the initial state, no bit, `viol = 1`. -/
def manViolation (init : Bool) : ManResult := ⟨⟨.awaitingFirstHalf, init⟩, none, true⟩

/-- `man_step` for a short half-symbol of level `l` (R67). -/
def manShort (init : Bool) (m : ManState) (l : Bool) : ManResult :=
  match m.phase with
  | .awaitingFirstHalf => if l = m.lvl then ⟨⟨.haveFirstHalf, m.lvl⟩, none, false⟩ else manViolation init
  | .haveFirstHalf => if l = !m.lvl then ⟨⟨.awaitingFirstHalf, m.lvl⟩, some m.lvl, false⟩ else manViolation init

/-- `man_step` for a long half-symbol of level `l` (R67): it never completes a pair. -/
def manLong (init : Bool) (m : ManState) (l : Bool) : ManResult :=
  match m.phase with
  | .awaitingFirstHalf => if l = m.lvl then ⟨⟨.awaitingFirstHalf, !m.lvl⟩, some (!m.lvl), false⟩ else manViolation init
  | .haveFirstHalf => manViolation init

/-- `man_step(m, sym)` (R67), with `init` the configuration's `MAN_INIT_LEVEL`, the only thing it reads of it (R66). -/
def manStep (init : Bool) (m : ManState) : Symbol → ManResult
  | .shortLow => manShort init m false
  | .shortHigh => manShort init m true
  | .longLow => manLong init m false
  | .longHigh => manLong init m true
  | .reset => ⟨⟨.awaitingFirstHalf, init⟩, none, false⟩

/-- One symbol on the stand-alone line decoder's input (R66): it takes its step and drives its two signals. The
instance's own line decoder is not touched: only FEED, RESET and ALLOC write that (R15). -/
def State.lineSymbol (s : State) (sym : Symbol) : Host.Outcome State Fault Refusal :=
  let r := manStep s.cfg.manInitLevel s.ld sym
  .next (State.driveLine { s with ld := r.next } r.out r.viol)

/-- ShortLow (R69). -/
def execShortLow (s : State) : Host.Outcome State Fault Refusal := s.lineSymbol .shortLow

/-- ShortHigh (R70). -/
def execShortHigh (s : State) : Host.Outcome State Fault Refusal := s.lineSymbol .shortHigh

/-- LongLow (R71). -/
def execLongLow (s : State) : Host.Outcome State Fault Refusal := s.lineSymbol .longLow

/-- LongHigh (R72). -/
def execLongHigh (s : State) : Host.Outcome State Fault Refusal := s.lineSymbol .longHigh

/-- Reset (R73). -/
def execResetSymbol (s : State) : Host.Outcome State Fault Refusal := s.lineSymbol .reset

end Sys2Proof.Machine
end

