-- ==== Sys2Proof/Machine/Validator.lean ====
section
/-!
DEFINITION. The checksum/parity validator and the field extractor (R97 to R107): combinational, on the frame value.
-/

namespace Sys2Proof.Machine

/-- `validate(f) = cfg.CHECK(f)` (R97). -/
def validate (c : Cfg) (f : BitVec c.frameBits) : Bool := c.check f

/-- `BATTERY(f)` (R104). -/
def batteryOf (c : Cfg) (f : BitVec c.frameBits) : Battery :=
  if c.batteryTable.okFrames.contains f.toNat then .ok
  else if c.batteryTable.lowFrames.contains f.toNat then .low
  else .unknown

/-- The exact temperature, before it is written in 16 bits (R101): the field less the bias. -/
def temperatureOf (c : Cfg) (f : BitVec c.frameBits) : Int :=
  (fieldOf f.toNat c.tShift c.tWidth : Int) - (c.tempBias : Int)

/-- `extract(f)` (R101). The pressure is the raw field count (R103). -/
def extract (c : Cfg) (f : BitVec c.frameBits) : Record where
  sensorId := BitVec.ofNat 32 (fieldOf f.toNat c.idShift c.idWidth)
  pressure := BitVec.ofNat 16 (fieldOf f.toNat c.pShift c.pWidth)
  temperature := BitVec.ofInt 16 (temperatureOf c f)
  battery := batteryOf c f
  rawBits := f.toNat
  rawCount := c.minBits

end Sys2Proof.Machine
end

