-- ==== Sys2Proof/Machine/FrameFsm.lean ====
section
/-!
DEFINITION. The frame acquisition and synchronisation state machine (R82 to R93). Where R92 and R83 to R87 could
differ, R83 to R87 are followed, as R92 says.
-/

namespace Sys2Proof.Machine

/-- The bit action in CheckPreamble for a used bit `u` (R85). -/
def State.preambleBit (s : State) (u : Bool) : FrameResult :=
  if u ≠ s.cfg.preambleBit then s.abort .preambleMismatch
  else
    let p := s.preCount.toNat + 1
    if p = s.cfg.preLen then ⟨{ s with preCount := BitVec.ofNat 16 p, frame := .decodingPayload }, none, none⟩
    else ⟨{ s with preCount := BitVec.ofNat 16 p }, none, none⟩

/-- The accumulator with the bit `u` appended at bit 0 (R24, R86): `((s.acc_value << 1) | u) mod 2^ACC_WIDTH`. -/
def State.appended (s : State) (u : Bool) : Nat := ((s.accValue <<< 1) ||| u.toNat) % 2 ^ s.cfg.accWidth

/-- The end of a frame with the frame value `f` (R86): a record if `CHECK` passes, and back to Reset either way. -/
def State.completeFrame (s : State) (f : BitVec s.cfg.frameBits) : FrameResult :=
  if validate s.cfg f then ⟨s.enterReset, some (extract s.cfg f), some .frameComplete⟩
  else ⟨s.enterReset, none, some .checkFail⟩

/-- The bit action in DecodingPayload for a used bit `u` (R86). -/
def State.payloadBit (s : State) (u : Bool) : FrameResult :=
  if s.accCount.toNat = s.cfg.accWidth then s.abort .overflow
  else
    let v := s.appended u
    let k := s.accCount.toNat + 1
    if k = s.cfg.frameBits then s.completeFrame (BitVec.ofNat s.cfg.frameBits v)
    else ⟨{ s with accValue := v, accCount := BitVec.ofNat 16 k }, none, none⟩

/-- The part of FEED that CheckPreamble and DecodingPayload share (R84), with the frame state's bit action: classify,
step the line decoder, abort on a Reset symbol or a violation, and act on the bit if one is emitted, after the
polarity inversion of R75. -/
def State.lineEvent (s : State) (level : Bool) (d : BitVec 32) (bitAction : State → Bool → FrameResult) : FrameResult :=
  let sym := classify s.cfg level d
  let r := manStep s.cfg.manInitLevel s.man sym
  if sym = .reset then s.abort .timingMismatch
  else if r.viol then s.abort .illegalTransition
  else
    match r.out with
    | none => ⟨s.setMan r.next, none, none⟩
    | some b => bitAction (s.setMan r.next) (b ^^ s.cfg.invertBits)

/-- `frame_step` (R83, R84, R92). In Reset only the start condition is asked; any other event is ignored. -/
def State.frameStep (s : State) (level : Bool) (d : BitVec 32) : FrameResult :=
  match s.frame with
  | .reset => if isStart s.cfg level d then ⟨s.startFrame, none, none⟩ else ⟨s, none, none⟩
  | .checkPreamble => s.lineEvent level d State.preambleBit
  | .decodingPayload => s.lineEvent level d State.payloadBit

end Sys2Proof.Machine
end

