-- ==== Sys2Proof/Machine/Commands.lean ====
section
/-!
DEFINITION. The four instance commands (R109 to R112) and the cause with which a command ends a frame attempt (R118).
-/

namespace Sys2Proof.Machine

/-- FEED (R109): one edge event into the frame machine. -/
def execFeed (level : Bool) (d : BitVec 32) (s : State) : Host.Outcome State Fault Refusal :=
  if s.live then
    let r := s.frameStep level d
    .next (State.drive { r.state with live := true } r.record)
  else .refused .notAllocated

/-- RESET (R110): the initial state, and no record. -/
def execReset (s : State) : Host.Outcome State Fault Refusal :=
  if s.live then .next (State.drive { s.enterReset with live := true } none)
  else .refused .notAllocated

/-- ALLOC (R111): the initial state with `live = 1`, from a live instance or none. -/
def execAlloc (s : State) : Host.Outcome State Fault Refusal :=
  .next (State.drive { s.enterReset with live := true } none)

/-- FREE (R112): `live = 0`; the other six fields keep their values. -/
def execFree (s : State) : Host.Outcome State Fault Refusal :=
  if s.live then .next (State.drive { s with live := false } none)
  else .refused .notAllocated

/-- The cause (R118, R120) with which an instruction ends the frame attempt, if its step is taken and it ends one. It is
written nowhere; it names the row of R118's table. -/
def endCause (i : Instr) (s : State) : Option Cause :=
  match i with
  | .feed level d => if s.live then (s.frameStep level d).cause else none
  | .reset => if s.live then some .explicitReset else none
  | .alloc => some .explicitReset
  | .free => if s.live then some .explicitReset else none
  | .shortLow => none
  | .shortHigh => none
  | .longLow => none
  | .longHigh => none
  | .resetSymbol => none

end Sys2Proof.Machine
end

