-- ==== Sys2Proof/Machine/Dispatch.lean ====
section
/-!
DEFINITION. One arm per constructor of `Instr`, each a direct call of its meaning.
-/

namespace Sys2Proof.Machine

def exec (i : Instr) (s : State) : Host.Outcome State Fault Refusal :=
  match i with
  | .feed level duration => Sys2Proof.Machine.execFeed level duration s
  | .reset => Sys2Proof.Machine.execReset s
  | .alloc => Sys2Proof.Machine.execAlloc s
  | .free => Sys2Proof.Machine.execFree s
  | .shortLow => Sys2Proof.Machine.execShortLow s
  | .shortHigh => Sys2Proof.Machine.execShortHigh s
  | .longLow => Sys2Proof.Machine.execLongLow s
  | .longHigh => Sys2Proof.Machine.execLongHigh s
  | .resetSymbol => Sys2Proof.Machine.execResetSymbol s

end Sys2Proof.Machine
end

