-- ==== Sys2Proof/WellFormed.lean ====
section
/-!
DEFINITION. Well-formedness of words and of instructions.
-/

namespace Sys2Proof

/-- A word spells something: a command word is a FEED or has its reserved bits 32:0 zero (R49), a symbol code is one of
the five named ones (R52). -/
def PortWord.wellFormed : PortWord → Bool
  | .cmd w => w.toNat / 2 ^ 33 == 0 || w.toNat % 2 ^ 33 == 0
  | .sym c => c.toNat ≤ 4

/-- An instruction is well-formed when its operands fit the fields that carry them. The types of FEED's operands are
exactly its fields (R48: one bit, 32 bits, every value legal by R31) and no other instruction has an operand, so every
term is. -/
def Instr.wellFormed : Instr → Bool
  | .feed _ d => d.toNat < 2 ^ 32
  | .reset => true
  | .alloc => true
  | .free => true
  | .shortLow => true
  | .shortHigh => true
  | .longLow => true
  | .longHigh => true
  | .resetSymbol => true

end Sys2Proof
end

