-- ==== Sys2Proof/Decode.lean ====
section
/-!
DEFINITION. The decoder, total on every word of both inputs (R50, R52), and the encoder, written from the same tables.
-/

namespace Sys2Proof

/-- `cmd[34:33]`, the command selector (R46). -/
def opField (w : BitVec 35) : BitVec 2 := w.extractLsb' 33 2

/-- `cmd[32]`, FEED's level (R48). -/
def levelField (w : BitVec 35) : Bool := w.getLsbD 32

/-- `cmd[31:0]`, FEED's duration (R48). -/
def durationField (w : BitVec 35) : BitVec 32 := w.extractLsb' 0 32

/-- `cmd[32:0]`, reserved in every command but FEED (R49). -/
def reservedField (w : BitVec 35) : BitVec 33 := w.extractLsb' 0 33

/-- The command decoder of R50. It reads no state. -/
def decodeCommand (w : BitVec 35) : Decoded :=
  if opField w = 0b00#2 then .instr (.feed (levelField w) (durationField w))
  else if reservedField w ≠ 0#33 then .reject .reservedOperandBits
  else if opField w = 0b01#2 then .instr .reset
  else if opField w = 0b10#2 then .instr .alloc
  else .instr .free

/-- The symbol code of R52: bit 2 marks Reset, bit 1 a long half-symbol, bit 0 is the level. -/
def decodeSymbol (c : BitVec 3) : Decoded :=
  if c = 0b000#3 then .instr .shortLow
  else if c = 0b001#3 then .instr .shortHigh
  else if c = 0b010#3 then .instr .longLow
  else if c = 0b011#3 then .instr .longHigh
  else if c = 0b100#3 then .instr .resetSymbol
  else .reject .reservedSymbol

/-- What a presented word spells. -/
def decode : PortWord → Decoded
  | .cmd w => decodeCommand w
  | .sym c => decodeSymbol c

/-- A command word from its three fields (R46). -/
def commandWord (op : BitVec 2) (level : Bool) (duration : BitVec 32) : BitVec 35 :=
  op ++ (BitVec.ofBool level ++ duration)

/-- The code of a symbol (R52). -/
def Symbol.code : Symbol → BitVec 3
  | .shortLow => 0b000#3
  | .shortHigh => 0b001#3
  | .longLow => 0b010#3
  | .longHigh => 0b011#3
  | .reset => 0b100#3

/-- The word that spells an instruction (R46 to R49, R52). -/
def encode : Instr → PortWord
  | .feed level duration => .cmd (commandWord 0b00#2 level duration)
  | .reset => .cmd (commandWord 0b01#2 false 0#32)
  | .alloc => .cmd (commandWord 0b10#2 false 0#32)
  | .free => .cmd (commandWord 0b11#2 false 0#32)
  | .shortLow => .sym (Symbol.code .shortLow)
  | .shortHigh => .sym (Symbol.code .shortHigh)
  | .longLow => .sym (Symbol.code .longLow)
  | .longHigh => .sym (Symbol.code .longHigh)
  | .resetSymbol => .sym (Symbol.code .reset)

/-- The word that an `nbits`-bit number `w` presents: the table's symbol rows have 3 bits and its command rows 35, each in
whole bytes, so the width says which input the word is for (log entry 9). A number too large for its input presents
nothing ("a word wider than 35 bits cannot be presented", R50). -/
def presentWord (nbits w : Nat) : Option PortWord :=
  if nbits < 35 then
    if w < 2 ^ 3 then some (.sym (BitVec.ofNat 3 w)) else none
  else if w < 2 ^ 35 then some (.cmd (BitVec.ofNat 35 w)) else none

/-- The instruction the decoder reads from a word of the opcode table. -/
def decodeTableWord (nbits w : Nat) : Option Instr :=
  match presentWord nbits w with
  | none => none
  | some p =>
    match decode p with
    | .instr i => some i
    | .reject _ => none

end Sys2Proof
end

