-- ==== Sys2Proof/Machine/Fetch.lean ====
section
/-!
DEFINITION. How a step takes its command. The block fetches nothing (R3, R17): the host issues words on the inputs, and
the step takes the first one that waits (R39).
-/

namespace Sys2Proof.Machine

/-- The refusal of a word that spells nothing (R49, R52). -/
def Refusal.ofReject : Reject → Refusal
  | .reservedOperandBits => .reservedOperandBits
  | .reservedSymbol => .reservedSymbol

/-- What the step finds on its inputs: nothing, a refusal, or an instruction to run with the word taken. -/
inductive Fetched where
  | idle (s : State)
  | refuse (r : Refusal)
  | run (i : Instr) (s : State)
deriving DecidableEq, Repr

/-- Decode a word: the instruction, to run on the state `s` with the word taken, or the refusal. -/
def State.decoded (s : State) (p : PortWord) : Fetched :=
  match decode p with
  | .instr i => .run i s
  | .reject r => .refuse (Refusal.ofReject r)

/-- The first part of R108's step. A command needs an admitted configuration before it is decoded; a symbol on the line
decoder's own input is no command and does not. Between commands the block holds its state and drives no record
(R132, R113). -/
def State.fetch (s : State) : Fetched :=
  match s.input with
  | [] => .idle (s.drive none)
  | .cmd w :: rest => if s.cfg.admitted then State.decoded { s with input := rest } (.cmd w) else .refuse .badConfig
  | .sym c :: rest => State.decoded { s with input := rest } (.sym c)

/-- Present a word before those that wait. -/
def State.present (s : State) (p : PortWord) : State := { s with input := p :: s.input }

/-- Present the word that the number `w` of `nbits` bits spells on the input its width is for, if it can be presented. -/
def State.presentNumber (s : State) (nbits w : Nat) : State :=
  match presentWord nbits w with
  | some p => s.present p
  | none => s

end Sys2Proof.Machine
end

