-- ==== Sys2Proof/Machine/Step.lean ====
section
/-!
DEFINITION. The step of the block (R108): one command per step, run to completion (R4).
-/

namespace Sys2Proof.Machine

/-- R108. With no word on its inputs the block holds its state (R132). -/
def step (s : State) : Host.Outcome State Fault Refusal :=
  match s.fetch with
  | .idle t => .next t
  | .refuse r => .refused r
  | .run i t => exec i t

/-- The state with a word of the opcode table presented first, so that the next step takes exactly it. -/
def State.withFetchWord (s : State) (nbits w : Nat) : State := s.presentNumber nbits w

end Sys2Proof.Machine
end

