-- ==== Sys2Proof/Machine/Fixture.lean ====
section
/-!
DEFINITION. The test-fixture encoder `manchester_encode` (R78), which carries bits to a line decoder in `(AWAIT, l0)`.
-/

namespace Sys2Proof.Machine

/-- The half-bit cells of a bit string (R74, R78): bit `v` is `¬v` then `v`. -/
def bitCells : List Bool → List Bool
  | [] => []
  | x :: xs => (!x) :: x :: bitCells xs

/-- The maximal runs of equal level, each with its length (R78). -/
def levelRuns : List Bool → List (Bool × Nat)
  | [] => []
  | c :: cs =>
    match levelRuns cs with
    | [] => [(c, 1)]
    | (l, n) :: rest => if l = c then (l, n + 1) :: rest else (c, 1) :: (l, n) :: rest

/-- The half-symbol of a run (R78): one cell is short, two are long. -/
def runSymbol (r : Bool × Nat) : Symbol := if r.2 = 1 then shortSymbol r.1 else longSymbol r.1

/-- `manchester_encode(l0, bits)` (R78): the cell `l0`, the bits' cells, less the last cell. -/
def manchesterEncode (l0 : Bool) (bits : List Bool) : List Symbol :=
  (levelRuns (l0 :: bitCells bits).dropLast).map runSymbol

/-- The level and nominal duration of a half-symbol (R78); a Reset symbol has neither. -/
def nominalEvent (c : Cfg) : Symbol → Option (Bool × BitVec 32)
  | .shortLow => some (false, c.shortUs)
  | .shortHigh => some (true, c.shortUs)
  | .longLow => some (false, c.longUs)
  | .longHigh => some (true, c.longUs)
  | .reset => none

end Sys2Proof.Machine
end

