-- ==== Sys2Proof/Machine/Assembler.lean ====
section
/-!
DEFINITION. The textual syntax of commands (R57) and the pseudo-commands (R58): one line of text, the command or
pseudo-command it names, the commands it expands to, and their words. Text is a list of characters.
-/

namespace Sys2Proof.Machine

/-- One line: empty (or a comment only), a command (R57), or a pseudo-command (R58). -/
inductive AsmLine where
  | blank
  | feed (level : Bool) (n : Nat)
  | reset
  | alloc
  | free
  | start
  | sh
  | sl
  | lh
  | ll
  | bits (l : List Bool)
deriving DecidableEq, Repr

/-- FEED of a number, if it is a `u32` (R57: from 0 to `2^32 - 1`). -/
def feedNumber (level : Bool) (n : Nat) : Option Instr :=
  if n < 2 ^ 32 then some (.feed level (BitVec.ofNat 32 n)) else none

/-- The commands of a line, for the instance's configuration (R58). -/
def AsmLine.expand (c : Cfg) : AsmLine → Option (List Instr)
  | .blank => some []
  | .feed level n => (feedNumber level n).map fun i => [i]
  | .reset => some [.reset]
  | .alloc => some [.alloc]
  | .free => some [.free]
  | .start => (feedNumber true (2 * c.longUs.toNat)).map fun i => [i]
  | .sh => some [.feed true c.shortUs]
  | .sl => some [.feed false c.shortUs]
  | .lh => some [.feed true c.longUs]
  | .ll => some [.feed false c.longUs]
  | .bits [] => none
  | .bits (b :: bs) =>
    some ((manchesterEncode c.manInitLevel (b :: bs)).filterMap fun y =>
      (nominalEvent c y).map fun e => .feed e.1 e.2)

/-- The value of a digit in base 16. -/
def digitValue (ch : Char) : Option Nat :=
  let n := ch.toNat
  if 48 ≤ n ∧ n ≤ 57 then some (n - 48)
  else if 65 ≤ n ∧ n ≤ 70 then some (n - 55)
  else if 97 ≤ n ∧ n ≤ 102 then some (n - 87)
  else none

/-- The number that digits spell after the number `acc`, in the given base. -/
def digitsFrom (base : Nat) : Nat → List Char → Option Nat
  | acc, [] => some acc
  | acc, ch :: cs =>
    match digitValue ch with
    | some v => if v < base then digitsFrom base (base * acc + v) cs else none
    | none => none

/-- `<n>` (R57): decimal, or hexadecimal with prefix `0x`. -/
def numberOf : List Char → Option Nat
  | [] => none
  | '0' :: 'x' :: [] => none
  | '0' :: 'x' :: ch :: cs => digitsFrom 16 0 (ch :: cs)
  | ch :: cs => digitsFrom 10 0 (ch :: cs)

/-- The line without its comment (R57: `;` starts a comment that runs to the end of the line). -/
def withoutComment (line : List Char) : List Char := line.takeWhile fun ch => ch != ';'

/-- The words of a line, separated by blanks; `cur` is the word read so far, last character first. -/
def wordsFrom : List Char → List Char → List (List Char)
  | cur, [] => if cur.isEmpty then [] else [cur.reverse]
  | cur, ch :: cs =>
    if ch = ' ' ∨ ch = '\t' then
      if cur.isEmpty then wordsFrom [] cs else cur.reverse :: wordsFrom [] cs
    else wordsFrom (ch :: cur) cs

/-- A level, `H` or `L` (R57). -/
def levelOf : List Char → Option Bool
  | ['H'] => some true
  | ['L'] => some false
  | _ => none

/-- A bit of `BITS`, `0` or `1` (R58). -/
def bitOf : List Char → Option Bool
  | ['0'] => some false
  | ['1'] => some true
  | _ => none

/-- The bits of `BITS` (R58). -/
def bitsOf : List (List Char) → Option (List Bool)
  | [] => some []
  | w :: ws =>
    match bitOf w, bitsOf ws with
    | some b, some bs => some (b :: bs)
    | _, _ => none

/-- A line's words read as a command or a pseudo-command. -/
def lineOfWords : List (List Char) → Option AsmLine
  | [] => some .blank
  | [['R', 'E', 'S', 'E', 'T']] => some .reset
  | [['A', 'L', 'L', 'O', 'C']] => some .alloc
  | [['F', 'R', 'E', 'E']] => some .free
  | [['S', 'T', 'A', 'R', 'T']] => some .start
  | [['S', 'H']] => some .sh
  | [['S', 'L']] => some .sl
  | [['L', 'H']] => some .lh
  | [['L', 'L']] => some .ll
  | [['F', 'E', 'E', 'D'], l, n] =>
    match levelOf l, numberOf n with
    | some level, some d => some (.feed level d)
    | _, _ => none
  | ['B', 'I', 'T', 'S'] :: ws => (bitsOf ws).map .bits
  | _ => none

/-- One line of text (R57). -/
def parseLine (line : List Char) : Option AsmLine := lineOfWords (wordsFrom [] (withoutComment line))

/-- The words that one line of text presents (R46, R57, R58), or none where it is no line of the syntax. -/
def assembleLine (c : Cfg) (line : List Char) : Option (List PortWord) :=
  match parseLine line with
  | none => none
  | some a => (a.expand c).map fun is => is.map encode

end Sys2Proof.Machine
end

