-- ==== Sys2Proof/Safety.lean ====
section
/-!
DEFINITION. What holds of every state a run reaches, and what a run shows: the terms that claims use.
-/

namespace Sys2Proof

/-- The window of R59 in exact integers: `|d - ref| < tol`. -/
def InWindow (d ref tol : Nat) : Prop := |(d : Int) - (ref : Int)| < (tol : Int)

/-- The event's duration fits neither window: the Reset symbol (R61), a timing mismatch in a frame (R84). -/
def Cfg.Unrecognised (c : Cfg) (d : BitVec 32) : Prop :=
  ¬ InWindow d.toNat c.shortUs.toNat c.toleranceUs.toNat ∧ ¬ InWindow d.toNat c.longUs.toNat c.toleranceUs.toNat

/-- The event is a short half-symbol (R61); the short window goes first (R62). -/
def Cfg.IsShort (c : Cfg) (d : BitVec 32) : Prop := InWindow d.toNat c.shortUs.toNat c.toleranceUs.toNat

/-- The event is a long half-symbol (R61). -/
def Cfg.IsLong (c : Cfg) (d : BitVec 32) : Prop :=
  ¬ InWindow d.toNat c.shortUs.toNat c.toleranceUs.toNat ∧ InWindow d.toNat c.longUs.toNat c.toleranceUs.toNat

/-- The start condition (R63), in exact integers. -/
def Cfg.IsStartPulse (c : Cfg) (level : Bool) (d : BitVec 32) : Prop :=
  level = true ∧ InWindow d.toNat (2 * c.longUs.toNat) c.toleranceUs.toNat

end Sys2Proof

namespace Sys2Proof.Machine

/-- The instance is at `INIT(cfg)` (R27): the six fields other than `s.live`. -/
def State.AtInit (s : State) : Prop :=
  s.frame = .reset ∧ s.manPhase = .awaitingFirstHalf ∧ s.manLvl = s.cfg.manInitLevel ∧ s.preCount = 0#16 ∧ s.accValue = 0 ∧
    s.accCount = 0#16

/-- `INIT(cfg)` written whole (R27), with the given `live`, no record on the port and no signal of the stand-alone line
decoder: the state after a reset, an abort, or a frame end without a record. -/
def State.initial (s : State) (live : Bool) : State :=
  { s with
    live := live
    frame := .reset
    manPhase := .awaitingFirstHalf
    manLvl := s.cfg.manInitLevel
    preCount := 0#16
    accValue := 0
    accCount := 0#16
    out := OutPort.idle
    ldBit := none
    ldViol := false }

/-- No record on the port and no signal of the stand-alone line decoder; the rest as it was. -/
def State.quiet (s : State) : State := { s with out := OutPort.idle, ldBit := none, ldViol := false }

/-- The event is the first half of a pair for the instance's line decoder (R67, R76). -/
def State.TakesHalf (s : State) (level : Bool) (d : BitVec 32) : Prop :=
  s.cfg.IsShort d ∧ s.manPhase = .awaitingFirstHalf ∧ level = s.manLvl

/-- The event makes the instance's line decoder emit the bit `b`, before polarity inversion (R67). -/
def State.Emits (s : State) (level : Bool) (d : BitVec 32) (b : Bool) : Prop :=
  (s.cfg.IsShort d ∧ s.manPhase = .haveFirstHalf ∧ level = (!s.manLvl) ∧ b = s.manLvl) ∨
  (s.cfg.IsLong d ∧ s.manPhase = .awaitingFirstHalf ∧ level = s.manLvl ∧ b = !s.manLvl)

/-- The event breaks the coding rules: one of the three cases of R81. -/
def State.Breaks (s : State) (level : Bool) (d : BitVec 32) : Prop :=
  (¬ s.cfg.Unrecognised d ∧ s.manPhase = .awaitingFirstHalf ∧ level ≠ s.manLvl) ∨
  (s.cfg.IsShort d ∧ s.manPhase = .haveFirstHalf ∧ level = s.manLvl) ∨
  (s.cfg.IsLong d ∧ s.manPhase = .haveFirstHalf)

/-- What the output port can show (R54, R55, R113): battery code `11` is never driven; raw bits fit `ACC_WIDTH`; with
`out_valid = 0` every other field is 0. -/
def OutPort.Legal (c : Cfg) (o : OutPort) : Prop :=
  o.recBattery ≠ 0b11#2 ∧ o.recRawBits < 2 ^ c.accWidth ∧ (o.outValid = false → o = OutPort.idle)

/-- The invariant of the machine: the configuration is admitted (R135); the accumulator is short of a frame, holds
nothing above its count, and is empty outside DecodingPayload (R24, R25); the preamble counter is short of
`PREAMBLE_LEN` while the preamble is checked and equal to it afterwards (R21); in Reset the instance is at `INIT`
(R29); the port shows what it may (R54). -/
structure State.Inv (s : State) : Prop where
  admitted : s.cfg.admitted = true
  count_short : s.accCount.toNat < s.cfg.frameBits
  value_fits : s.accValue < 2 ^ s.accCount.toNat
  empty_outside_payload : s.frame ≠ .decodingPayload → s.accValue = 0 ∧ s.accCount = 0#16
  preamble_running : s.frame = .checkPreamble → s.preCount.toNat < s.cfg.preLen
  preamble_done : s.frame = .decodingPayload → s.preCount.toNat = s.cfg.preLen
  init_in_reset : s.frame = .reset → s.AtInit
  port_legal : s.out.Legal s.cfg

/-- The output port after each of `k` steps, as long as they are taken. -/
def portTrace : Nat → State → List OutPort
  | 0, _ => []
  | k + 1, s =>
    match step s with
    | .next t => t.out :: portTrace k t
    | .fault _ => []
    | .refused _ => []

/-- The state after `k` steps, if all are taken. -/
def stateAfter : Nat → State → Option State
  | 0, s => some s
  | k + 1, s =>
    match step s with
    | .next t => stateAfter k t
    | .fault _ => none
    | .refused _ => none

/-- The stand-alone line decoder on a list of symbols (R79): its last state, the bits it emits in order, and whether it
reported a violation. -/
def runLine (init : Bool) (m : ManState) : List Symbol → ManState × List Bool × Bool
  | [] => (m, [], false)
  | y :: ys =>
    let r := manStep init m y
    let rest := runLine init r.next ys
    (rest.1, r.out.toList ++ rest.2.1, r.viol || rest.2.2)

/-- The bits that the stand-alone line decoder emits over `k` steps, in order. -/
def lineBits : Nat → State → List Bool
  | 0, _ => []
  | k + 1, s =>
    match step s with
    | .next t => t.ldBit.toList ++ lineBits k t
    | .fault _ => []
    | .refused _ => []

/-- Whether the stand-alone line decoder reports a violation in one of `k` steps. -/
def lineViolates : Nat → State → Bool
  | 0, _ => false
  | k + 1, s =>
    match step s with
    | .next t => t.ldViol || lineViolates k t
    | .fault _ => false
    | .refused _ => false

/-- The number that a bit string spells, first bit most significant (R24, R32). -/
def bitsValue (bits : List Bool) : Nat := bits.foldl (fun v b => 2 * v + b.toNat) 0

/-- R92's complete frame step, written as its one function: the state and the record. The machine follows R83 to R87;
R92 says the two are the same. -/
def State.frameStepWhole (s : State) (level : Bool) (d : BitVec 32) : State × Option Record :=
  if s.frame = .reset then
    if isStart s.cfg level d then ({ s.enterReset with frame := .checkPreamble }, none) else (s, none)
  else
    let sym := classify s.cfg level d
    let r := manStep s.cfg.manInitLevel ⟨s.manPhase, s.manLvl⟩ sym
    if sym = .reset then (s.enterReset, none)
    else if r.viol then (s.enterReset, none)
    else
      let s1 := { s with manPhase := r.next.phase, manLvl := r.next.lvl }
      match r.out with
      | none => (s1, none)
      | some b =>
        let u := b ^^ s.cfg.invertBits
        if s.frame = .checkPreamble then
          if u ≠ s.cfg.preambleBit then (s.enterReset, none)
          else if s.preCount.toNat + 1 = s.cfg.preLen then
            ({ s1 with preCount := BitVec.ofNat 16 (s.preCount.toNat + 1), frame := .decodingPayload }, none)
          else ({ s1 with preCount := BitVec.ofNat 16 (s.preCount.toNat + 1) }, none)
        else if s.accCount.toNat = s.cfg.accWidth then (s.enterReset, none)
        else
          let v := (2 * s.accValue + u.toNat) % 2 ^ s.cfg.accWidth
          if s.accCount.toNat + 1 < s.cfg.frameBits then
            ({ s1 with accValue := v, accCount := BitVec.ofNat 16 (s.accCount.toNat + 1) }, none)
          else if s.cfg.check (BitVec.ofNat s.cfg.frameBits v) then
            (s.enterReset, some (extract s.cfg (BitVec.ofNat s.cfg.frameBits v)))
          else (s.enterReset, none)

end Sys2Proof.Machine
end

