-- ==== Sys2Proof/Certificates/Slice0/Obligations.lean ====
section
/-!
DEFINITION. The statements for the provers. Each formalises rules of spec/ or, where its docstring says so, a choice of
the model. The terms they use stand in Sys2Proof/Safety.lean. Where a statement gives a next state whole, its clauses
on `out` hold R113's port in a field (log entry 5), and those on `ld`, `ldBit` and `ldViol` are the model's (log entry
6).
-/

open Sys2Proof Sys2Proof.Machine

/-! ### Words and instructions -/

/-- R46 to R49, R52: every well-formed instruction, with every operand, is read back from its own word. -/
def Obligations.DecodeOfEncodeIsTheInstruction : Prop :=
  ∀ i : Instr, i.wellFormed = true → decode (encode i) = .instr i

/-- R46 to R52: no two words spell one instruction; a word that spells something is the word its instruction has. -/
def Obligations.EncodeOfDecodeIsTheWord : Prop :=
  ∀ (p : PortWord) (i : Instr), decode p = .instr i → encode i = p

/-- R49: reserved bits are refused by name, RESET, ALLOC and FREE have one word each, FEED has the `2^33` words with
`OP` 00. -/
def Obligations.ReservedOperandBitsAreRefused : Prop :=
  (∀ w : BitVec 35, w.toNat / 2 ^ 33 ≠ 0 → w.toNat % 2 ^ 33 ≠ 0 → decode (.cmd w) = .reject .reservedOperandBits) ∧
  (∀ w : BitVec 35, decode (.cmd w) = .instr .reset ↔ w = 0x200000000#35) ∧
  (∀ w : BitVec 35, decode (.cmd w) = .instr .alloc ↔ w = 0x400000000#35) ∧
  (∀ w : BitVec 35, decode (.cmd w) = .instr .free ↔ w = 0x600000000#35) ∧
  (∀ w : BitVec 35, (∃ l d, decode (.cmd w) = .instr (.feed l d)) ↔ w.toNat < 2 ^ 33)

/-- R48: FEED's operands are bit 32 and bits 31:0 of the word, as they stand. -/
def Obligations.FeedOperandsAreTheWordsFields : Prop :=
  ∀ (w : BitVec 35) (l : Bool) (d : BitVec 32), decode (.cmd w) = .instr (.feed l d) →
    l.toNat = w.toNat / 2 ^ 32 ∧ d.toNat = w.toNat % 2 ^ 32

/-- R52, R68: a symbol word spells a symbol exactly when its code is at most 4, a reserved code is refused by the step in
every state, the classifier produces none, and the four 2-bit codes are the line-decoder states' (R53). R18: the frame
states' codes, of which `11` is none. -/
def Obligations.ReservedSymbolCodesAreRefused : Prop :=
  (∀ c : BitVec 3, (∃ i, decode (.sym c) = .instr i) ↔ c.toNat ≤ 4) ∧
  (∀ (s : State) (c : BitVec 3) (rest : List PortWord), s.input = .sym c :: rest → 4 < c.toNat →
    step s = .refused .reservedSymbol) ∧
  (∀ (c : Cfg) (l : Bool) (d : BitVec 32), (classify c l d).code.toNat ≤ 4) ∧
  (∀ k : BitVec 2, ∃! m : ManState, m.code = k) ∧
  (∀ b : Bool, ManState.code ⟨.awaitingFirstHalf, b⟩ = 0b0#1 ++ BitVec.ofBool b ∧
    ManState.code ⟨.haveFirstHalf, b⟩ = 0b1#1 ++ BitVec.ofBool b) ∧
  (Frame.code .reset = 0b00#2 ∧ Frame.code .checkPreamble = 0b01#2 ∧ Frame.code .decodingPayload = 0b10#2)

/-- R46, R47, R52: words written out from the encoding tables. -/
def Obligations.WrittenOutWordsDecode : Prop :=
  decodeTableWord 40 0x1000001E8 = some (.feed true 488#32) ∧ decodeTableWord 40 0x00000007B = some (.feed false 123#32) ∧
  decodeTableWord 40 0x200000000 = some .reset ∧ decodeTableWord 40 0x400000000 = some .alloc ∧
  decodeTableWord 40 0x600000000 = some .free ∧ decodeTableWord 40 0x200000001 = none ∧
  decodeTableWord 8 0b000 = some .shortLow ∧ decodeTableWord 8 0b011 = some .longHigh ∧
  decodeTableWord 8 0b100 = some .resetSymbol ∧ decodeTableWord 8 0b101 = none

/-! ### The step -/

/-- R108: a command needs an admitted configuration, then a word that spells one; then the step is the meaning of the
decoded command on the state with the word taken. -/
def Obligations.StepRunsTheDecodedCommand : Prop :=
  ∀ (s : State) (w : BitVec 35) (rest : List PortWord), s.input = .cmd w :: rest →
    (s.cfg.admitted = false → step s = .refused .badConfig) ∧
    (s.cfg.admitted = true →
      (∀ i, decode (.cmd w) = .instr i → step s = exec i { s with input := rest }) ∧
      (decode (.cmd w) = .reject .reservedOperandBits → step s = .refused .reservedOperandBits))

/-- R52, R66: a symbol word runs its symbol on the line decoder's own input, whatever the configuration. -/
def Obligations.StepRunsTheDecodedSymbol : Prop :=
  ∀ (s : State) (c : BitVec 3) (rest : List PortWord) (i : Instr), s.input = .sym c :: rest →
    decode (.sym c) = .instr i → step s = exec i { s with input := rest }

/-- R132, with R113 for the port: with nothing on its inputs the block holds its state and shows no record. That a step
without a command is a next state is the model's choice (log entry 4). -/
def Obligations.IdleStepHoldsTheState : Prop :=
  ∀ s : State, s.input = [] → step s = .next s.quiet

/-- R108, R117: every admitted command on an allocated instance has a next state. -/
def Obligations.AdmittedCommandsOnALiveInstanceComplete : Prop :=
  ∀ (s : State) (w : BitVec 35) (rest : List PortWord) (i : Instr), s.input = .cmd w :: rest →
    s.cfg.admitted = true → s.live = true → decode (.cmd w) = .instr i → ∃ t, step s = .next t

/-- R23: no step writes the configuration. -/
def Obligations.StepNeverWritesTheConfiguration : Prop :=
  ∀ s t : State, step s = .next t → t.cfg = s.cfg

/-- R28, R111, R133: without an instance only ALLOC's word has a step on the command port. -/
def Obligations.OnlyAllocHasAStepWithoutAnInstance : Prop :=
  ∀ (s t : State) (w : BitVec 35) (rest : List PortWord), s.input = .cmd w :: rest → s.live = false →
    step s = .next t → w = 0x400000000#35

/-! ### Reset values and the invariant -/

/-- R28, column power-on; R9: every field of `SAMPLE`'s table, with its two open parameters open, and `BATTERY` Unknown
throughout (R104). That power-on carries `SAMPLE`, that `SAMPLE` is admitted in its open items, and the empty inputs and
port are the model's (log entries 1, 2, 3 and 8). -/
def Obligations.PowerOnStateIsUnallocatedInit : Prop :=
  State.reset.live = false ∧ State.reset.AtInit ∧ State.reset.cfg = Cfg.sample ∧
    State.reset.cfg.admitted = true ∧ State.reset.input = [] ∧ State.reset.out = OutPort.idle ∧
    (Cfg.sample.shortUs.toNat = 123 ∧ Cfg.sample.longUs.toNat = 244 ∧ Cfg.sample.toleranceUs.toNat = 61 ∧
      Cfg.sample.minBits.toNat = 60 ∧ Cfg.sample.preambleLen = .openParam ∧ Cfg.sample.preambleBit = false ∧
      Cfg.sample.invertBits = false ∧ Cfg.sample.manInitLevel = false ∧ Cfg.sample.accWidth = 64 ∧
      Cfg.sample.checkSel = .openParam ∧ Cfg.sample.idShift = 18 ∧ Cfg.sample.idWidth = 24 ∧ Cfg.sample.pShift = 9 ∧
      Cfg.sample.pWidth = 9 ∧ Cfg.sample.tShift = 0 ∧ Cfg.sample.tWidth = 8 ∧ Cfg.sample.tempBias = 50 ∧
      ∀ f : BitVec Cfg.sample.frameBits, batteryOf Cfg.sample f = .unknown)

/-- R28: its whole table. -/
def Obligations.ResetTableHolds : Prop :=
  (State.reset.live = false ∧ State.reset.AtInit) ∧
  (∀ s : State, ∃ t, exec .alloc s = .next t ∧ t.live = true ∧ t.AtInit) ∧
  (∀ s : State, s.live = true → ∃ t, exec .reset s = .next t ∧ t.live = true ∧ t.AtInit) ∧
  (∀ (s t : State) (l : Bool) (d : BitVec 32) (c : Cause), exec (.feed l d) s = .next t →
    endCause (.feed l d) s = some c → t.live = true ∧ t.AtInit) ∧
  (∀ s : State, s.live = true → ∃ t, exec .free s = .next t ∧ t.live = false ∧ t.frame = s.frame ∧
    t.manPhase = s.manPhase ∧ t.manLvl = s.manLvl ∧ t.preCount = s.preCount ∧ t.accValue = s.accValue ∧
    t.accCount = s.accCount) ∧
  (∀ (s : State) (l : Bool) (d : BitVec 32), s.live = false →
    exec (.feed l d) s = .refused .notAllocated ∧ exec .reset s = .refused .notAllocated ∧
      exec .free s = .refused .notAllocated)

/-- The invariant at power-on (R28, R135). -/
def Obligations.PowerOnMeetsTheInvariant : Prop := State.reset.Inv

/-- R21, R24, R25, R29, R54: every step from a state that meets the invariant gives a state that meets it. -/
def Obligations.EveryStepKeepsTheInvariant : Prop :=
  ∀ s t : State, s.Inv → step s = .next t → t.Inv

/-- R25: between steps of any run from a state that meets the invariant the accumulator is short of a frame, and empty
in Reset and CheckPreamble. -/
def Obligations.AccumulatorIsShortAndEmptyOutsidePayload : Prop :=
  ∀ (s t : State) (k : Nat), s.Inv → stateAfter k s = some t →
    t.accCount.toNat < t.cfg.minBits.toNat ∧
      (t.frame = .reset ∨ t.frame = .checkPreamble → t.accValue = 0 ∧ t.accCount = 0#16)

/-! ### Configuration -/

/-- R135: a configuration is admitted exactly when its items hold (9 is the field's type), `SAMPLE` with given values for
its two open parameters exactly when these meet items 3 and 8, and with one that is not, every command is refused. -/
def Obligations.AdmissionIsItsEightItems : Prop :=
  (∀ c : Cfg, c.admitted = true ↔
    (1 ≤ c.toleranceUs.toNat ∧
     c.shortUs.toNat < c.longUs.toNat ∧ c.shortUs.toNat + 2 * c.toleranceUs.toNat ≤ c.longUs.toNat + 1 ∧
     (1 ≤ c.preLen ∧ c.preLen ≤ 65535) ∧
     (1 ≤ c.minBits.toNat ∧ c.minBits.toNat ≤ c.accWidth ∧ c.accWidth ≤ 65535) ∧
     (c.idWidth ≤ 24 ∧ c.idShift + c.idWidth ≤ c.minBits.toNat) ∧
     (c.pWidth ≤ 16 ∧ c.pShift + c.pWidth ≤ c.minBits.toNat) ∧
     (c.tShift + c.tWidth ≤ c.minBits.toNat ∧ c.tempBias ≤ 32768 ∧
       (2 : Int) ^ c.tWidth - 1 - (c.tempBias : Int) ≤ 32767) ∧
     c.CheckLaw)) ∧
  (∀ (n : BitVec 16) (chk : CheckSel),
    Cfg.admitted { Cfg.sample with preambleLen := .given n, checkSel := chk } = true ↔
      1 ≤ n.toNat ∧ Cfg.CheckLaw { Cfg.sample with preambleLen := .given n, checkSel := chk }) ∧
  (∀ (s : State) (w : BitVec 35) (rest : List PortWord), s.cfg.admitted = false → s.input = .cmd w :: rest →
    step s = .refused .badConfig)

/-- R98: an admitted `CHECK` detects every single-bit error in the payload. -/
def Obligations.AdmittedCheckDetectsSingleBitErrors : Prop :=
  ∀ (c : Cfg) (f : BitVec c.frameBits), c.admitted = true → validate c f = true →
    ∀ i < c.frameBits, validate c (f ^^^ BitVec.twoPow c.frameBits i) = false

/-- R99: an admitted `CHECK` rejects some frame value. -/
def Obligations.AdmittedCheckIsNotAlwaysTrue : Prop :=
  ∀ c : Cfg, c.admitted = true → ∃ f : BitVec c.frameBits, validate c f = false

/-- R97, R98 for the model's two forms of `CHECK` (log entry 3): the data form reaches every predicate of a frame value,
and what the open parameter keeps of an uninterpreted predicate meets the law, and is all of it where that met the law
already. -/
def Obligations.CheckFormsReachEveryLawfulPredicate : Prop :=
  (∀ (c : Cfg) (chk : BitVec c.frameBits → Bool), ∃ frames : List Nat, ∀ f : BitVec c.frameBits,
    Cfg.check { c with checkSel := .accepts frames } f = chk f) ∧
  (∀ (w : Nat) (raw : BitVec w → Bool) (f : BitVec w), lawfulPart raw f = true →
    ∀ i < w, lawfulPart raw (f ^^^ BitVec.twoPow w i) = false) ∧
  (∀ (w : Nat) (raw : BitVec w → Bool),
    (∀ f, raw f = true → ∀ i < w, raw (f ^^^ BitVec.twoPow w i) = false) → lawfulPart raw = raw)

/-! ### Classifier -/

/-- R59: the window test is strict and exact. -/
def Obligations.WindowTestIsStrictAndExact : Prop :=
  ∀ d ref tol : Nat, matchWindow d ref tol = true ↔ |(d : Int) - (ref : Int)| < (tol : Int)

/-- R64: the windows are integer ranges; those of `SAMPLE`. -/
def Obligations.WindowsAreIntegerRanges : Prop :=
  (∀ d ref tol : Nat, 0 < tol →
    (matchWindow d ref tol = true ↔ ref + 1 - tol ≤ d ∧ d + 1 ≤ ref + tol)) ∧
  (∀ (l : Bool) (d : BitVec 32),
    (classify Cfg.sample l d = shortSymbol l ↔ 63 ≤ d.toNat ∧ d.toNat ≤ 183) ∧
    (classify Cfg.sample l d = longSymbol l ↔ 184 ≤ d.toNat ∧ d.toNat ≤ 304) ∧
    (classify Cfg.sample l d = .reset ↔ d.toNat ≤ 62 ∨ 305 ≤ d.toNat) ∧
    (isStart Cfg.sample l d = true ↔ l = true ∧ 428 ≤ d.toNat ∧ d.toNat ≤ 548))

/-- R61, R62: the symbol of every event under every configuration, and its code. -/
def Obligations.ClassifierGivesTheSymbolOfItsWindow : Prop :=
  ∀ (c : Cfg) (l : Bool) (d : BitVec 32),
    (c.IsShort d → classify c l d = if l then .shortHigh else .shortLow) ∧
    (c.IsLong d → classify c l d = if l then .longHigh else .longLow) ∧
    (c.Unrecognised d → classify c l d = .reset) ∧
    (c.IsShort d → (classify c l d).code = 0b00#2 ++ BitVec.ofBool l) ∧
    (c.IsLong d → (classify c l d).code = 0b01#2 ++ BitVec.ofBool l) ∧
    (c.Unrecognised d → (classify c l d).code = 0b100#3)

/-- R65: under an admitted configuration each window gives its own symbol, and everything else Reset. -/
def Obligations.AdmittedWindowsAreDisjoint : Prop :=
  ∀ (c : Cfg) (l : Bool) (d : BitVec 32), c.admitted = true →
    (InWindow d.toNat c.shortUs.toNat c.toleranceUs.toNat → classify c l d = if l then .shortHigh else .shortLow) ∧
    (InWindow d.toNat c.longUs.toNat c.toleranceUs.toNat → classify c l d = if l then .longHigh else .longLow) ∧
    (c.Unrecognised d → classify c l d = .reset)

/-- R63: the start condition. -/
def Obligations.StartConditionIsAHighDoubleLongPulse : Prop :=
  ∀ (c : Cfg) (l : Bool) (d : BitVec 32),
    isStart c l d = true ↔ l = true ∧ |(d.toNat : Int) - 2 * (c.longUs.toNat : Int)| < (c.toleranceUs.toNat : Int)

/-! ### Line decoder -/

/-- R67: the pseudocode of the transition function, clause by clause. -/
def Obligations.LineDecoderTransitionTable : Prop :=
  ∀ (init b : Bool),
    manStep init ⟨.awaitingFirstHalf, b⟩ (shortSymbol b) = ⟨⟨.haveFirstHalf, b⟩, none, false⟩ ∧
    manStep init ⟨.awaitingFirstHalf, b⟩ (shortSymbol !b) = ⟨⟨.awaitingFirstHalf, init⟩, none, true⟩ ∧
    manStep init ⟨.awaitingFirstHalf, b⟩ (longSymbol b) = ⟨⟨.awaitingFirstHalf, !b⟩, some (!b), false⟩ ∧
    manStep init ⟨.awaitingFirstHalf, b⟩ (longSymbol !b) = ⟨⟨.awaitingFirstHalf, init⟩, none, true⟩ ∧
    manStep init ⟨.haveFirstHalf, b⟩ (shortSymbol !b) = ⟨⟨.awaitingFirstHalf, b⟩, some b, false⟩ ∧
    manStep init ⟨.haveFirstHalf, b⟩ (shortSymbol b) = ⟨⟨.awaitingFirstHalf, init⟩, none, true⟩ ∧
    (∀ l, manStep init ⟨.haveFirstHalf, b⟩ (longSymbol l) = ⟨⟨.awaitingFirstHalf, init⟩, none, true⟩) ∧
    (∀ m, manStep init m .reset = ⟨⟨.awaitingFirstHalf, init⟩, none, false⟩)

/-- R69: ShortLow, in every line-decoder state; nothing else changes but the signals of the step. -/
def Obligations.ShortLowFollowsItsRule : Prop :=
  ∀ s : State,
    (s.ld = ⟨.awaitingFirstHalf, false⟩ → exec .shortLow s = .next { s.quiet with ld := ⟨.haveFirstHalf, false⟩ }) ∧
    (s.ld = ⟨.haveFirstHalf, true⟩ →
      exec .shortLow s = .next { s.quiet with ld := ⟨.awaitingFirstHalf, true⟩, ldBit := some true }) ∧
    (s.ld = ⟨.awaitingFirstHalf, true⟩ ∨ s.ld = ⟨.haveFirstHalf, false⟩ →
      exec .shortLow s = .next { s.quiet with ld := ⟨.awaitingFirstHalf, s.cfg.manInitLevel⟩, ldViol := true })

/-- R70: ShortHigh. -/
def Obligations.ShortHighFollowsItsRule : Prop :=
  ∀ s : State,
    (s.ld = ⟨.awaitingFirstHalf, true⟩ → exec .shortHigh s = .next { s.quiet with ld := ⟨.haveFirstHalf, true⟩ }) ∧
    (s.ld = ⟨.haveFirstHalf, false⟩ →
      exec .shortHigh s = .next { s.quiet with ld := ⟨.awaitingFirstHalf, false⟩, ldBit := some false }) ∧
    (s.ld = ⟨.awaitingFirstHalf, false⟩ ∨ s.ld = ⟨.haveFirstHalf, true⟩ →
      exec .shortHigh s = .next { s.quiet with ld := ⟨.awaitingFirstHalf, s.cfg.manInitLevel⟩, ldViol := true })

/-- R71: LongLow. -/
def Obligations.LongLowFollowsItsRule : Prop :=
  ∀ s : State,
    (s.ld = ⟨.awaitingFirstHalf, false⟩ →
      exec .longLow s = .next { s.quiet with ld := ⟨.awaitingFirstHalf, true⟩, ldBit := some true }) ∧
    (s.ld ≠ ⟨.awaitingFirstHalf, false⟩ →
      exec .longLow s = .next { s.quiet with ld := ⟨.awaitingFirstHalf, s.cfg.manInitLevel⟩, ldViol := true })

/-- R72: LongHigh. -/
def Obligations.LongHighFollowsItsRule : Prop :=
  ∀ s : State,
    (s.ld = ⟨.awaitingFirstHalf, true⟩ →
      exec .longHigh s = .next { s.quiet with ld := ⟨.awaitingFirstHalf, false⟩, ldBit := some false }) ∧
    (s.ld ≠ ⟨.awaitingFirstHalf, true⟩ →
      exec .longHigh s = .next { s.quiet with ld := ⟨.awaitingFirstHalf, s.cfg.manInitLevel⟩, ldViol := true })

/-- R73: Reset, from every state. -/
def Obligations.ResetSymbolReturnsToTheInitialState : Prop :=
  ∀ s : State, exec .resetSymbol s = .next { s.quiet with ld := ⟨.awaitingFirstHalf, s.cfg.manInitLevel⟩ }

/-- R81: the violations are exactly the three cases, each resets the line decoder and emits no bit, and the frame machine
aborts on it. -/
def Obligations.ViolationsAreExactlyTheThreeCases : Prop :=
  (∀ (init : Bool) (m : ManState) (y : Symbol),
    ((manStep init m y).viol = true ↔
      (m.phase = .awaitingFirstHalf ∧ (y = shortSymbol (!m.lvl) ∨ y = longSymbol (!m.lvl))) ∨
      (m.phase = .haveFirstHalf ∧ y = shortSymbol m.lvl) ∨
      (m.phase = .haveFirstHalf ∧ ∃ l, y = longSymbol l)) ∧
    ((manStep init m y).viol = true →
      (manStep init m y).next = ⟨.awaitingFirstHalf, init⟩ ∧ (manStep init m y).out = none)) ∧
  ∀ (s : State) (l : Bool) (d : BitVec 32), s.live = true → s.frame ≠ .reset →
    (manStep s.cfg.manInitLevel ⟨s.manPhase, s.manLvl⟩ (classify s.cfg l d)).viol = true →
    exec (.feed l d) s = .next (s.initial true)

/-- R79: the transition function gives back every bit string from its Manchester encoding, without a violation, the last
bit on the last symbol. -/
def Obligations.ManchesterRoundTrip : Prop :=
  ∀ (l0 : Bool) (bits : List Bool), bits ≠ [] →
    (runLine l0 ⟨.awaitingFirstHalf, l0⟩ (manchesterEncode l0 bits)).2 = (bits, false) ∧
    (runLine l0 ⟨.awaitingFirstHalf, l0⟩ (manchesterEncode l0 bits).dropLast).2 = (bits.dropLast, false)

/-- R79 on the machine: the stand-alone line decoder, fed the encoding on its symbol input, replays the bits. -/
def Obligations.MachineReplaysManchesterBits : Prop :=
  ∀ (s : State) (bits : List Bool) (rest : List PortWord), bits ≠ [] →
    s.ld = ⟨.awaitingFirstHalf, s.cfg.manInitLevel⟩ →
    s.input = (manchesterEncode s.cfg.manInitLevel bits).map (fun y => PortWord.sym y.code) ++ rest →
    lineBits (manchesterEncode s.cfg.manInitLevel bits).length s = bits ∧
    lineViolates (manchesterEncode s.cfg.manInitLevel bits).length s = false ∧
    lineBits ((manchesterEncode s.cfg.manInitLevel bits).length - 1) s = bits.dropLast

/-! ### FEED -/

/-- R109, R117: FEED has a next state on every live instance, for every level and duration, and keeps it live; without
an instance it is refused. -/
def Obligations.FeedCompletesOnEveryLiveInstance : Prop :=
  ∀ (s : State) (l : Bool) (d : BitVec 32),
    (s.live = true → ∃ t, exec (.feed l d) s = .next t ∧ t.live = true) ∧
    (s.live = false → exec (.feed l d) s = .refused .notAllocated)

/-- R83, R95: in Reset the start condition begins a frame from `INIT`, and any other event changes nothing. -/
def Obligations.FeedInResetAsksOnlyTheStartCondition : Prop :=
  ∀ (s : State) (l : Bool) (d : BitVec 32), s.live = true → s.frame = .reset →
    (s.cfg.IsStartPulse l d → exec (.feed l d) s = .next { s.initial true with frame := .checkPreamble }) ∧
    (¬ s.cfg.IsStartPulse l d → exec (.feed l d) s = .next s.quiet)

/-- R61, R66, R67, R84: every event is one of four kinds and of no two, and emits one bit at most; the kinds are what the
classifier and the instance's line decoder answer: the Reset symbol, a violation, no bit, a bit. -/
def Obligations.EveryEventIsOneOfFourKinds : Prop :=
  ∀ (s : State) (l : Bool) (d : BitVec 32),
    let y := classify s.cfg l d
    let r := manStep s.cfg.manInitLevel ⟨s.manPhase, s.manLvl⟩ y
    (s.cfg.Unrecognised d ↔ y = .reset) ∧
    (s.Breaks l d ↔ r.viol = true) ∧
    (s.TakesHalf l d ↔ y ≠ .reset ∧ r.viol = false ∧ r.out = none) ∧
    (∀ b, s.Emits l d b ↔ r.out = some b) ∧
    (s.cfg.Unrecognised d ∨ s.Breaks l d → r.next = ⟨.awaitingFirstHalf, s.cfg.manInitLevel⟩ ∧ r.out = none) ∧
    (s.TakesHalf l d → r.next = ⟨.haveFirstHalf, l⟩) ∧
    (∀ b, s.Emits l d b → r.next = ⟨.awaitingFirstHalf, b⟩) ∧
    (s.cfg.Unrecognised d ∨ s.Breaks l d ∨ s.TakesHalf l d ∨ ∃ b, s.Emits l d b) ∧
    ¬ (s.cfg.Unrecognised d ∧ s.Breaks l d) ∧ ¬ (s.cfg.Unrecognised d ∧ s.TakesHalf l d) ∧
    ¬ (s.Breaks l d ∧ s.TakesHalf l d) ∧
    ∀ b, s.Emits l d b → ¬ s.cfg.Unrecognised d ∧ ¬ s.Breaks l d ∧ ¬ s.TakesHalf l d ∧ ∀ b', s.Emits l d b' → b' = b

/-- R84, R87: outside Reset an event in neither window, or one that breaks the coding rules, ends the attempt with the
instance at `INIT` and no record. -/
def Obligations.BadEventMidFrameReturnsToInit : Prop :=
  ∀ (s : State) (l : Bool) (d : BitVec 32), s.live = true → s.frame ≠ .reset →
    s.cfg.Unrecognised d ∨ s.Breaks l d → exec (.feed l d) s = .next (s.initial true)

/-- R76, R84: outside Reset a first half-symbol is taken and only the line decoder's phase changes. -/
def Obligations.FirstHalfSymbolSuspendsTheLineDecoder : Prop :=
  ∀ (s : State) (l : Bool) (d : BitVec 32), s.live = true → s.frame ≠ .reset → s.TakesHalf l d →
    exec (.feed l d) s = .next { s.quiet with manPhase := .haveFirstHalf }

/-- R75, R85: a bit in CheckPreamble. -/
def Obligations.PreambleBitFollowsItsRule : Prop :=
  ∀ (s : State) (l b : Bool) (d : BitVec 32), s.live = true → s.frame = .checkPreamble → s.Emits l d b →
    ((b ^^ s.cfg.invertBits) ≠ s.cfg.preambleBit → exec (.feed l d) s = .next (s.initial true)) ∧
    ((b ^^ s.cfg.invertBits) = s.cfg.preambleBit → s.preCount.toNat + 1 = s.cfg.preLen →
      exec (.feed l d) s = .next { s.quiet with
        manPhase := .awaitingFirstHalf, manLvl := b, preCount := s.preCount + 1#16, frame := .decodingPayload }) ∧
    ((b ^^ s.cfg.invertBits) = s.cfg.preambleBit → s.preCount.toNat + 1 ≠ s.cfg.preLen →
      exec (.feed l d) s = .next { s.quiet with
        manPhase := .awaitingFirstHalf, manLvl := b, preCount := s.preCount + 1#16 })

/-- R75, R86, R100: a bit in DecodingPayload. -/
def Obligations.PayloadBitFollowsItsRule : Prop :=
  ∀ (s : State) (l b : Bool) (d : BitVec 32), s.live = true → s.frame = .decodingPayload → s.Emits l d b →
    let v := (2 * s.accValue + (b ^^ s.cfg.invertBits).toNat) % 2 ^ s.cfg.accWidth
    let f := BitVec.ofNat s.cfg.frameBits v
    (s.accCount.toNat = s.cfg.accWidth → exec (.feed l d) s = .next (s.initial true)) ∧
    (s.accCount.toNat ≠ s.cfg.accWidth → s.accCount.toNat + 1 = s.cfg.frameBits → validate s.cfg f = true →
      exec (.feed l d) s = .next { s.initial true with out := OutPort.carrying (extract s.cfg f) }) ∧
    (s.accCount.toNat ≠ s.cfg.accWidth → s.accCount.toNat + 1 = s.cfg.frameBits → validate s.cfg f = false →
      exec (.feed l d) s = .next (s.initial true)) ∧
    (s.accCount.toNat ≠ s.cfg.accWidth → s.accCount.toNat + 1 ≠ s.cfg.frameBits →
      exec (.feed l d) s = .next { s.quiet with
        manPhase := .awaitingFirstHalf, manLvl := b, accValue := v, accCount := s.accCount + 1#16 })

/-- R92: where the accumulator is short of a frame (R25), FEED is R92's one function. -/
def Obligations.FeedIsTheCompleteFrameStep : Prop :=
  ∀ (s : State) (l : Bool) (d : BitVec 32), s.live = true → s.accCount.toNat < s.cfg.minBits.toNat →
    exec (.feed l d) s = .next { (s.frameStepWhole l d).1 with
      out := OutPort.ofRecord (s.frameStepWhole l d).2, ldBit := none, ldViol := false }

/-- R93: the table of the frame state's transitions, row by row, for states that meet the invariant. -/
def Obligations.FrameStateTransitionTable : Prop :=
  ∀ (s t : State) (l : Bool) (d : BitVec 32), s.Inv → s.live = true → exec (.feed l d) s = .next t →
    (s.frame = .reset → t.out.outValid = false ∧
      (s.cfg.IsStartPulse l d → t.frame = .checkPreamble) ∧ (¬ s.cfg.IsStartPulse l d → t.frame = .reset)) ∧
    (s.frame = .checkPreamble → t.out.outValid = false ∧
      (s.cfg.Unrecognised d ∨ s.Breaks l d → t.frame = .reset) ∧
      (s.TakesHalf l d → t.frame = .checkPreamble) ∧
      ∀ b, s.Emits l d b →
        ((b ^^ s.cfg.invertBits) ≠ s.cfg.preambleBit → t.frame = .reset) ∧
        ((b ^^ s.cfg.invertBits) = s.cfg.preambleBit → s.preCount.toNat + 1 < s.cfg.preLen → t.frame = .checkPreamble) ∧
        ((b ^^ s.cfg.invertBits) = s.cfg.preambleBit → s.preCount.toNat + 1 = s.cfg.preLen → t.frame = .decodingPayload)) ∧
    (s.frame = .decodingPayload →
      (s.cfg.Unrecognised d ∨ s.Breaks l d → t.frame = .reset ∧ t.out.outValid = false) ∧
      (s.TakesHalf l d → t.frame = .decodingPayload ∧ t.out.outValid = false) ∧
      ∀ b, s.Emits l d b →
        (s.accCount.toNat + 1 < s.cfg.frameBits → t.frame = .decodingPayload ∧ t.out.outValid = false) ∧
        (s.accCount.toNat + 1 = s.cfg.frameBits → t.frame = .reset ∧
          t.out.outValid = validate s.cfg (BitVec.ofNat s.cfg.frameBits
            (2 * s.accValue + (b ^^ s.cfg.invertBits).toNat))))

/-- R114: only a FEED that completes a valid frame drives `out_valid`; RESET, ALLOC and FREE never do. -/
def Obligations.OnlyACompletingFeedDrivesTheRecord : Prop :=
  ∀ (i : Instr) (s t : State), exec i s = .next t → t.out.outValid = true →
    ∃ (l : Bool) (d : BitVec 32) (f : BitVec s.cfg.frameBits), i = .feed l d ∧ s.live = true ∧
      s.frame = .decodingPayload ∧ s.accCount.toNat + 1 = s.cfg.frameBits ∧ validate s.cfg f = true ∧
      t.out = OutPort.carrying (extract s.cfg f) ∧ t.AtInit

/-- R118, R120: every row of R118's table. A FEED's cause leaves `INIT`, with a record exactly when it is FrameComplete,
and no record goes without it; when each of FEED's six causes arises; Overflow does not under the invariant; RESET, ALLOC
and FREE end an attempt with ExplicitReset; the codes. Causes are computed and stored nowhere (log entry 14). -/
def Obligations.CausesLeaveInitAndOnlyCompletionARecord : Prop :=
  (∀ (s t : State) (l : Bool) (d : BitVec 32), exec (.feed l d) s = .next t →
    (∀ c, endCause (.feed l d) s = some c → t = { s.initial true with out := t.out } ∧
      (t.out.outValid = true ↔ c = .frameComplete)) ∧
    (endCause (.feed l d) s = none → t.out = OutPort.idle) ∧
    (endCause (.feed l d) s = some .timingMismatch ↔ s.frame ≠ .reset ∧ s.cfg.Unrecognised d) ∧
    (endCause (.feed l d) s = some .illegalTransition ↔ s.frame ≠ .reset ∧ s.Breaks l d) ∧
    (endCause (.feed l d) s = some .preambleMismatch ↔
      s.frame = .checkPreamble ∧ ∃ b, s.Emits l d b ∧ (b ^^ s.cfg.invertBits) ≠ s.cfg.preambleBit) ∧
    (endCause (.feed l d) s = some .overflow ↔
      s.frame = .decodingPayload ∧ s.accCount.toNat = s.cfg.accWidth ∧ ∃ b, s.Emits l d b) ∧
    (∀ ok : Bool, endCause (.feed l d) s = some (if ok then .frameComplete else .checkFail) ↔
      s.frame = .decodingPayload ∧ s.accCount.toNat ≠ s.cfg.accWidth ∧ s.accCount.toNat + 1 = s.cfg.frameBits ∧
        ∃ b, s.Emits l d b ∧ validate s.cfg (BitVec.ofNat s.cfg.frameBits
          ((2 * s.accValue + (b ^^ s.cfg.invertBits).toNat) % 2 ^ s.cfg.accWidth)) = ok) ∧
    endCause (.feed l d) s ≠ some .explicitReset ∧
    (s.Inv → endCause (.feed l d) s ≠ some .overflow)) ∧
  (∀ s t : State,
    (exec .reset s = .next t → endCause .reset s = some .explicitReset ∧ t = s.initial true) ∧
    (exec .alloc s = .next t → endCause .alloc s = some .explicitReset ∧ t = s.initial true) ∧
    (exec .free s = .next t → endCause .free s = some .explicitReset ∧ t = { s.quiet with live := false })) ∧
  (Cause.code .frameComplete = 0 ∧ Cause.code .timingMismatch = 1 ∧ Cause.code .illegalTransition = 2 ∧
    Cause.code .preambleMismatch = 3 ∧ Cause.code .overflow = 4 ∧ Cause.code .checkFail = 5 ∧
    Cause.code .explicitReset = 6)

/-- R89: the event that ends an attempt is consumed, even one that would be a start condition. -/
def Obligations.EndingEventIsNotReexamined : Prop :=
  ∀ (s t : State) (l : Bool) (d : BitVec 32) (c : Cause), exec (.feed l d) s = .next t →
    endCause (.feed l d) s = some c → t.frame = .reset

/-- R101: the record's fields, for every admitted configuration. -/
def Obligations.ExtractedFieldsAreTheFrameValuesFields : Prop :=
  ∀ (c : Cfg) (f : BitVec c.frameBits), c.admitted = true →
    (extract c f).sensorId.toNat = f.toNat / 2 ^ c.idShift % 2 ^ c.idWidth ∧
    (extract c f).pressure.toNat = f.toNat / 2 ^ c.pShift % 2 ^ c.pWidth ∧
    (extract c f).temperature.toInt = ((f.toNat / 2 ^ c.tShift % 2 ^ c.tWidth : Nat) : Int) - (c.tempBias : Int) ∧
    (extract c f).battery = batteryOf c f ∧
    (extract c f).rawBits = f.toNat ∧ (extract c f).rawBits < 2 ^ c.accWidth ∧
    (extract c f).rawCount.toNat = c.frameBits

/-- R54, R55, R101: what the output port shows, field by field: the record's numbers, its battery's code, or zeros; and
every step that is taken shows a validated frame's record or none. -/
def Obligations.OutputPortShowsTheRecordsFields : Prop :=
  (∀ (c : Cfg) (f : BitVec c.frameBits), c.admitted = true →
    let o := OutPort.carrying (extract c f)
    o.outValid = true ∧
    o.recSensorId.toNat = f.toNat / 2 ^ c.idShift % 2 ^ c.idWidth ∧ o.recSensorId.toNat < 2 ^ 24 ∧
    o.recPressure.toNat = f.toNat / 2 ^ c.pShift % 2 ^ c.pWidth ∧
    o.recTemperature.toInt = ((f.toNat / 2 ^ c.tShift % 2 ^ c.tWidth : Nat) : Int) - (c.tempBias : Int) ∧
    (batteryOf c f = .ok → o.recBattery = 0b00#2) ∧ (batteryOf c f = .low → o.recBattery = 0b01#2) ∧
    (batteryOf c f = .unknown → o.recBattery = 0b10#2) ∧
    o.recRawBits = f.toNat ∧ o.recRawBits < 2 ^ c.accWidth ∧ o.recRawCount.toNat = c.frameBits) ∧
  (∀ r : Record, OutPort.ofRecord (some r) = OutPort.carrying r) ∧
  (OutPort.ofRecord none = OutPort.idle ∧ OutPort.idle.outValid = false ∧ OutPort.idle.recSensorId = 0#32 ∧
    OutPort.idle.recPressure = 0#16 ∧ OutPort.idle.recTemperature = 0#16 ∧ OutPort.idle.recBattery = 0b00#2 ∧
    OutPort.idle.recRawBits = 0 ∧ OutPort.idle.recRawCount = 0#16) ∧
  (Battery.code .ok = 0b00#2 ∧ Battery.code .low = 0b01#2 ∧ Battery.code .unknown = 0b10#2) ∧
  (∀ s t : State, step s = .next t → t.out = OutPort.idle ∨
    ∃ f : BitVec s.cfg.frameBits, validate s.cfg f = true ∧ t.out = OutPort.carrying (extract s.cfg f))

/-- R104 for the model's form of `BATTERY` (log entry 3): the record's battery is Ok for a frame value listed so, Low for
one listed so and not as Ok, else Unknown; and every function of a frame value has such lists. -/
def Obligations.BatteryTablesReachEveryFunction : Prop :=
  (∀ (c : Cfg) (f : BitVec c.frameBits),
    (f.toNat ∈ c.batteryTable.okFrames → (extract c f).battery = .ok) ∧
    (f.toNat ∉ c.batteryTable.okFrames → f.toNat ∈ c.batteryTable.lowFrames → (extract c f).battery = .low) ∧
    (f.toNat ∉ c.batteryTable.okFrames → f.toNat ∉ c.batteryTable.lowFrames → (extract c f).battery = .unknown)) ∧
  (∀ (c : Cfg) (bat : BitVec c.frameBits → Battery), ∃ table : BatteryTable, ∀ f : BitVec c.frameBits,
    (extract { c with batteryTable := table } f).battery = bat f)

/-- R102, R104: the record's fields under `SAMPLE`. -/
def Obligations.SampleRecordFields : Prop :=
  ∀ f : BitVec Cfg.sample.frameBits,
    (extract Cfg.sample f).sensorId.toNat = f.toNat / 2 ^ 18 % 2 ^ 24 ∧
    (extract Cfg.sample f).pressure.toNat = f.toNat / 2 ^ 9 % 2 ^ 9 ∧
    (extract Cfg.sample f).temperature.toInt = ((f.toNat % 2 ^ 8 : Nat) : Int) - 50 ∧
    (extract Cfg.sample f).battery = .unknown ∧ (extract Cfg.sample f).rawCount = 60#16

/-! ### RESET, ALLOC, FREE -/

/-- R110: RESET, its word, its effect and its refusal. -/
def Obligations.ResetForcesTheInitialState : Prop :=
  decode (.cmd 0x200000000#35) = .instr .reset ∧
  ∀ s : State, (s.live = true → exec .reset s = .next (s.initial true)) ∧
    (s.live = false → exec .reset s = .refused .notAllocated)

/-- R111: ALLOC, its word and its effect, on a live instance as on none. -/
def Obligations.AllocBeginsAnInstanceAtInit : Prop :=
  decode (.cmd 0x400000000#35) = .instr .alloc ∧ ∀ s : State, exec .alloc s = .next (s.initial true)

/-- R112: FREE, its word, its effect and its refusal. -/
def Obligations.FreeEndsTheInstance : Prop :=
  decode (.cmd 0x600000000#35) = .instr .free ∧
  ∀ s : State, (s.live = true → exec .free s = .next { s.quiet with live := false }) ∧
    (s.live = false → exec .free s = .refused .notAllocated)

/-- R36: RESET and ALLOC twice give the state of once, and a second FREE is refused. -/
def Obligations.CommandsOtherThanFeedAreIdempotent : Prop :=
  ∀ s t : State,
    (exec .reset s = .next t → exec .reset t = .next t) ∧ (exec .alloc s = .next t → exec .alloc t = .next t) ∧
    (exec .free s = .next t → exec .free t = .refused .notAllocated)

/-! ### Frames of the two inputs -/

/-- R15, R66: a command leaves the stand-alone line decoder as it was; a symbol leaves the instance as it was, and shows
no record. That the symbol input drives a line decoder of its own is the model's reading (log entry 6). -/
def Obligations.CommandsAndSymbolsKeepApart : Prop :=
  ∀ (i : Instr) (s t : State), exec i s = .next t →
    t.cfg = s.cfg ∧ t.input = s.input ∧
    ((∃ l d, i = .feed l d) ∨ i = .reset ∨ i = .alloc ∨ i = .free →
      t.ld = s.ld ∧ t.ldBit = none ∧ t.ldViol = false) ∧
    (i = .shortLow ∨ i = .shortHigh ∨ i = .longLow ∨ i = .longHigh ∨ i = .resetSymbol →
      t = { s.quiet with ld := t.ld, ldBit := t.ldBit, ldViol := t.ldViol })

/-! ### Whole frames -/

/-- R82 to R92, R106, R113, R79: from a live instance in Reset, a start pulse and then events whose symbols are the
Manchester encoding of the preamble and `MIN_BITS` payload bits give exactly one record, on the last event, when `CHECK`
accepts the payload's value, and none when it does not; no earlier step shows one, and the instance ends at `INIT`. -/
def Obligations.CompleteFrameYieldsItsRecord : Prop :=
  ∀ (s : State) (d0 : BitVec 32) (payload : List Bool) (evs : List (Bool × BitVec 32)),
    s.cfg.admitted = true → s.live = true → s.frame = .reset → s.cfg.IsStartPulse true d0 →
    payload.length = s.cfg.frameBits →
    evs.map (fun e => classify s.cfg e.1 e.2) = manchesterEncode s.cfg.manInitLevel
      ((List.replicate s.cfg.preLen s.cfg.preambleBit ++ payload).map fun b => b ^^ s.cfg.invertBits) →
    s.input = encode (.feed true d0) :: evs.map (fun e => encode (.feed e.1 e.2)) →
    let f := BitVec.ofNat s.cfg.frameBits (bitsValue payload)
    let shown := OutPort.ofRecord (if validate s.cfg f then some (extract s.cfg f) else none)
    portTrace (evs.length + 1) s = List.replicate evs.length OutPort.idle ++ [shown] ∧
    stateAfter (evs.length + 1) s = some { s.initial true with input := [], out := shown }

/-- R94: a single out-of-tolerance duration mid-frame, then any events that start nothing, then a start pulse and a
complete frame: the machine is at `INIT` after the first, re-acquires, and shows that frame's record and no other. -/
def Obligations.ReacquisitionAfterABadPulse : Prop :=
  ∀ (s : State) (l : Bool) (d d0 : BitVec 32) (payload : List Bool) (ignored evs : List (Bool × BitVec 32)),
    s.cfg.admitted = true → s.live = true → s.frame ≠ .reset → s.cfg.Unrecognised d →
    (∀ e ∈ ignored, ¬ s.cfg.IsStartPulse e.1 e.2) → s.cfg.IsStartPulse true d0 →
    payload.length = s.cfg.frameBits →
    evs.map (fun e => classify s.cfg e.1 e.2) = manchesterEncode s.cfg.manInitLevel
      ((List.replicate s.cfg.preLen s.cfg.preambleBit ++ payload).map fun b => b ^^ s.cfg.invertBits) →
    s.input = encode (.feed l d) :: (ignored.map (fun e => encode (.feed e.1 e.2)) ++
      encode (.feed true d0) :: evs.map (fun e => encode (.feed e.1 e.2))) →
    validate s.cfg (BitVec.ofNat s.cfg.frameBits (bitsValue payload)) = true →
    stateAfter 1 s = some { s.initial true with input := s.input.tail } ∧
    portTrace (ignored.length + evs.length + 2) s = List.replicate (ignored.length + evs.length + 1) OutPort.idle ++
      [OutPort.carrying (extract s.cfg (BitVec.ofNat s.cfg.frameBits (bitsValue payload)))]

/-! ### Assembler -/

/-- R58: every row of its table, for every configuration (`START` where `2 * LONG_US` fits a duration, R57), with the
lines that name the rows; under an admitted configuration the FEEDs are a start condition and the bits' Manchester
encoding to the classifier. -/
def Obligations.PseudoCommandsSpellTheirSymbols : Prop :=
  (∀ c : Cfg,
    (2 * c.longUs.toNat < 2 ^ 32 → ∃ d : BitVec 32, AsmLine.start.expand c = some [.feed true d] ∧
      d.toNat = 2 * c.longUs.toNat ∧ (c.admitted = true → c.IsStartPulse true d)) ∧
    AsmLine.sh.expand c = some [.feed true c.shortUs] ∧ AsmLine.sl.expand c = some [.feed false c.shortUs] ∧
    AsmLine.lh.expand c = some [.feed true c.longUs] ∧ AsmLine.ll.expand c = some [.feed false c.longUs] ∧
    (∀ bits : List Bool, bits ≠ [] → ∃ evs : List (Bool × BitVec 32),
      (AsmLine.bits bits).expand c = some (evs.map fun e => Instr.feed e.1 e.2) ∧
      List.Forall₂ (fun y e => (y = .shortLow ∧ e = (false, c.shortUs)) ∨ (y = .shortHigh ∧ e = (true, c.shortUs)) ∨
        (y = .longLow ∧ e = (false, c.longUs)) ∨ (y = .longHigh ∧ e = (true, c.longUs)))
        (manchesterEncode c.manInitLevel bits) evs ∧
      (c.admitted = true → evs.map (fun e => classify c e.1 e.2) = manchesterEncode c.manInitLevel bits))) ∧
  (AsmLine.start.expand Cfg.sample = some [.feed true 488#32] ∧ AsmLine.sh.expand Cfg.sample = some [.feed true 123#32] ∧
    AsmLine.ll.expand Cfg.sample = some [.feed false 244#32]) ∧
  (parseLine "START".toList = some .start ∧ parseLine "SH".toList = some .sh ∧ parseLine "SL".toList = some .sl ∧
    parseLine "LH".toList = some .lh ∧ parseLine "LL".toList = some .ll ∧
    ∀ bits : List Bool, bits ≠ [] →
      parseLine ("BITS".toList ++ bits.flatMap fun b => [' ', if b then '1' else '0']) = some (.bits bits))
end

