-- ==== Sys2Proof/Laws/State.lean ====
section
/-!
SUPPORT. One lemma per field per update of the state, so that no later proof unfolds a record update.
-/

namespace Sys2Proof.Machine

@[simp] theorem State.enterReset_cfg (s : State) : (s.enterReset).cfg = s.cfg := rfl
@[simp] theorem State.enterReset_live (s : State) : (s.enterReset).live = s.live := rfl
@[simp] theorem State.enterReset_frame (s : State) : (s.enterReset).frame = .reset := rfl
@[simp] theorem State.enterReset_manPhase (s : State) : (s.enterReset).manPhase = .awaitingFirstHalf := rfl
@[simp] theorem State.enterReset_manLvl (s : State) : (s.enterReset).manLvl = s.cfg.manInitLevel := rfl
@[simp] theorem State.enterReset_preCount (s : State) : (s.enterReset).preCount = 0#16 := rfl
@[simp] theorem State.enterReset_accValue (s : State) : (s.enterReset).accValue = 0 := rfl
@[simp] theorem State.enterReset_accCount (s : State) : (s.enterReset).accCount = 0#16 := rfl
@[simp] theorem State.enterReset_input (s : State) : (s.enterReset).input = s.input := rfl
@[simp] theorem State.enterReset_out (s : State) : (s.enterReset).out = s.out := rfl
@[simp] theorem State.enterReset_ld (s : State) : (s.enterReset).ld = s.ld := rfl
@[simp] theorem State.enterReset_ldBit (s : State) : (s.enterReset).ldBit = s.ldBit := rfl
@[simp] theorem State.enterReset_ldViol (s : State) : (s.enterReset).ldViol = s.ldViol := rfl

@[simp] theorem State.startFrame_cfg (s : State) : (s.startFrame).cfg = s.cfg := rfl
@[simp] theorem State.startFrame_live (s : State) : (s.startFrame).live = s.live := rfl
@[simp] theorem State.startFrame_frame (s : State) : (s.startFrame).frame = .checkPreamble := rfl
@[simp] theorem State.startFrame_manPhase (s : State) : (s.startFrame).manPhase = .awaitingFirstHalf := rfl
@[simp] theorem State.startFrame_manLvl (s : State) : (s.startFrame).manLvl = s.cfg.manInitLevel := rfl
@[simp] theorem State.startFrame_preCount (s : State) : (s.startFrame).preCount = 0#16 := rfl
@[simp] theorem State.startFrame_accValue (s : State) : (s.startFrame).accValue = 0 := rfl
@[simp] theorem State.startFrame_accCount (s : State) : (s.startFrame).accCount = 0#16 := rfl
@[simp] theorem State.startFrame_input (s : State) : (s.startFrame).input = s.input := rfl
@[simp] theorem State.startFrame_out (s : State) : (s.startFrame).out = s.out := rfl
@[simp] theorem State.startFrame_ld (s : State) : (s.startFrame).ld = s.ld := rfl
@[simp] theorem State.startFrame_ldBit (s : State) : (s.startFrame).ldBit = s.ldBit := rfl
@[simp] theorem State.startFrame_ldViol (s : State) : (s.startFrame).ldViol = s.ldViol := rfl

@[simp] theorem State.setMan_cfg (s : State) (m : ManState) : (s.setMan m).cfg = s.cfg := rfl
@[simp] theorem State.setMan_live (s : State) (m : ManState) : (s.setMan m).live = s.live := rfl
@[simp] theorem State.setMan_frame (s : State) (m : ManState) : (s.setMan m).frame = s.frame := rfl
@[simp] theorem State.setMan_manPhase (s : State) (m : ManState) : (s.setMan m).manPhase = m.phase := rfl
@[simp] theorem State.setMan_manLvl (s : State) (m : ManState) : (s.setMan m).manLvl = m.lvl := rfl
@[simp] theorem State.setMan_preCount (s : State) (m : ManState) : (s.setMan m).preCount = s.preCount := rfl
@[simp] theorem State.setMan_accValue (s : State) (m : ManState) : (s.setMan m).accValue = s.accValue := rfl
@[simp] theorem State.setMan_accCount (s : State) (m : ManState) : (s.setMan m).accCount = s.accCount := rfl
@[simp] theorem State.setMan_input (s : State) (m : ManState) : (s.setMan m).input = s.input := rfl
@[simp] theorem State.setMan_out (s : State) (m : ManState) : (s.setMan m).out = s.out := rfl
@[simp] theorem State.setMan_ld (s : State) (m : ManState) : (s.setMan m).ld = s.ld := rfl
@[simp] theorem State.setMan_ldBit (s : State) (m : ManState) : (s.setMan m).ldBit = s.ldBit := rfl
@[simp] theorem State.setMan_ldViol (s : State) (m : ManState) : (s.setMan m).ldViol = s.ldViol := rfl

@[simp] theorem State.drive_cfg (s : State) (r : Option Record) : (s.drive r).cfg = s.cfg := rfl
@[simp] theorem State.drive_live (s : State) (r : Option Record) : (s.drive r).live = s.live := rfl
@[simp] theorem State.drive_frame (s : State) (r : Option Record) : (s.drive r).frame = s.frame := rfl
@[simp] theorem State.drive_manPhase (s : State) (r : Option Record) : (s.drive r).manPhase = s.manPhase := rfl
@[simp] theorem State.drive_manLvl (s : State) (r : Option Record) : (s.drive r).manLvl = s.manLvl := rfl
@[simp] theorem State.drive_preCount (s : State) (r : Option Record) : (s.drive r).preCount = s.preCount := rfl
@[simp] theorem State.drive_accValue (s : State) (r : Option Record) : (s.drive r).accValue = s.accValue := rfl
@[simp] theorem State.drive_accCount (s : State) (r : Option Record) : (s.drive r).accCount = s.accCount := rfl
@[simp] theorem State.drive_input (s : State) (r : Option Record) : (s.drive r).input = s.input := rfl
@[simp] theorem State.drive_out (s : State) (r : Option Record) : (s.drive r).out = OutPort.ofRecord r := rfl
@[simp] theorem State.drive_ld (s : State) (r : Option Record) : (s.drive r).ld = s.ld := rfl
@[simp] theorem State.drive_ldBit (s : State) (r : Option Record) : (s.drive r).ldBit = none := rfl
@[simp] theorem State.drive_ldViol (s : State) (r : Option Record) : (s.drive r).ldViol = false := rfl

@[simp] theorem State.driveLine_cfg (s : State) (b : Option Bool) (v : Bool) : (s.driveLine b v).cfg = s.cfg := rfl
@[simp] theorem State.driveLine_live (s : State) (b : Option Bool) (v : Bool) : (s.driveLine b v).live = s.live := rfl
@[simp] theorem State.driveLine_frame (s : State) (b : Option Bool) (v : Bool) : (s.driveLine b v).frame = s.frame := rfl
@[simp] theorem State.driveLine_manPhase (s : State) (b : Option Bool) (v : Bool) : (s.driveLine b v).manPhase = s.manPhase := rfl
@[simp] theorem State.driveLine_manLvl (s : State) (b : Option Bool) (v : Bool) : (s.driveLine b v).manLvl = s.manLvl := rfl
@[simp] theorem State.driveLine_preCount (s : State) (b : Option Bool) (v : Bool) : (s.driveLine b v).preCount = s.preCount := rfl
@[simp] theorem State.driveLine_accValue (s : State) (b : Option Bool) (v : Bool) : (s.driveLine b v).accValue = s.accValue := rfl
@[simp] theorem State.driveLine_accCount (s : State) (b : Option Bool) (v : Bool) : (s.driveLine b v).accCount = s.accCount := rfl
@[simp] theorem State.driveLine_input (s : State) (b : Option Bool) (v : Bool) : (s.driveLine b v).input = s.input := rfl
@[simp] theorem State.driveLine_out (s : State) (b : Option Bool) (v : Bool) : (s.driveLine b v).out = OutPort.idle := rfl
@[simp] theorem State.driveLine_ld (s : State) (b : Option Bool) (v : Bool) : (s.driveLine b v).ld = s.ld := rfl
@[simp] theorem State.driveLine_ldBit (s : State) (b : Option Bool) (v : Bool) : (s.driveLine b v).ldBit = b := rfl
@[simp] theorem State.driveLine_ldViol (s : State) (b : Option Bool) (v : Bool) : (s.driveLine b v).ldViol = v := rfl

@[simp] theorem State.enterReset_man (s : State) : s.enterReset.man = manInit s.cfg := rfl
@[simp] theorem State.startFrame_man (s : State) : s.startFrame.man = manInit s.cfg := rfl
@[simp] theorem State.setMan_man (s : State) (m : ManState) : (s.setMan m).man = m := rfl
@[simp] theorem State.drive_man (s : State) (r : Option Record) : (s.drive r).man = s.man := rfl

@[simp] theorem State.abort_state (s : State) (c : Cause) : (s.abort c).state = s.enterReset := rfl
@[simp] theorem State.abort_record (s : State) (c : Cause) : (s.abort c).record = none := rfl
@[simp] theorem State.abort_cause (s : State) (c : Cause) : (s.abort c).cause = some c := rfl

@[simp] theorem OutPort.ofRecord_none : OutPort.ofRecord none = OutPort.idle := rfl
@[simp] theorem OutPort.ofRecord_some (r : Record) : OutPort.ofRecord (some r) = OutPort.carrying r := rfl
@[simp] theorem OutPort.idle_outValid : OutPort.idle.outValid = false := rfl
@[simp] theorem OutPort.carrying_outValid (r : Record) : (OutPort.carrying r).outValid = true := rfl

end Sys2Proof.Machine
end

