-- ==== Sys2Proof/Laws/Frame.lean ====
section
/-!
SUPPORT. What the classifier, the line decoder and the frame machine can do, each said once, so that later proofs cite
these lemmas and unfold none of those functions.
-/

namespace Sys2Proof.Machine

/-- The classifier gives a half-symbol of the event's level, short or long, or Reset. -/
theorem classify_cases (c : Cfg) (level : Bool) (d : BitVec 32) :
    (matchWindow (durationValue d) c.shortUs.toNat c.toleranceUs.toNat = true ∧
      classify c level d = shortSymbol level) ∨
    (matchWindow (durationValue d) c.shortUs.toNat c.toleranceUs.toNat = false ∧
      matchWindow (durationValue d) c.longUs.toNat c.toleranceUs.toNat = true ∧
      classify c level d = longSymbol level) ∨
    (matchWindow (durationValue d) c.shortUs.toNat c.toleranceUs.toNat = false ∧
      matchWindow (durationValue d) c.longUs.toNat c.toleranceUs.toNat = false ∧ classify c level d = .reset) := by
  unfold classify
  split
  · exact .inl ⟨‹_›, rfl⟩
  · rename_i h
    split
    · exact .inr (.inl ⟨by simpa using h, ‹_›, rfl⟩)
    · rename_i h'
      exact .inr (.inr ⟨by simpa using h, by simpa using h', rfl⟩)

/-- `man_step` on a short half-symbol, whatever its level. -/
theorem manStep_shortSymbol (init : Bool) (m : ManState) (l : Bool) :
    manStep init m (shortSymbol l) = manShort init m l := by
  cases l <;> rfl

/-- `man_step` on a long half-symbol, whatever its level. -/
theorem manStep_longSymbol (init : Bool) (m : ManState) (l : Bool) :
    manStep init m (longSymbol l) = manLong init m l := by
  cases l <;> rfl

/-- A bit is emitted only without a violation, and the line decoder then awaits a first half at the bit's level. -/
theorem manStep_emits {init : Bool} {m : ManState} {y : Symbol} {b : Bool} (h : (manStep init m y).out = some b) :
    (manStep init m y).viol = false ∧ (manStep init m y).next = ⟨.awaitingFirstHalf, b⟩ := by
  obtain ⟨p, l⟩ := m
  revert h
  cases init <;> cases p <;> cases l <;> cases y <;> cases b <;> decide

/-- A bit action in CheckPreamble: a mismatch aborts; otherwise the count goes up by one, and the preamble ends when it
reaches `PREAMBLE_LEN`. -/
theorem preambleBit_cases (s : State) (u : Bool) :
    (u ≠ s.cfg.preambleBit ∧ s.preambleBit u = s.abort .preambleMismatch) ∨
    (u = s.cfg.preambleBit ∧ s.preCount.toNat + 1 = s.cfg.preLen ∧
      s.preambleBit u =
        ⟨{ s with preCount := BitVec.ofNat 16 (s.preCount.toNat + 1), frame := .decodingPayload }, none, none⟩) ∨
    (u = s.cfg.preambleBit ∧ s.preCount.toNat + 1 ≠ s.cfg.preLen ∧
      s.preambleBit u = ⟨{ s with preCount := BitVec.ofNat 16 (s.preCount.toNat + 1) }, none, none⟩) := by
  unfold State.preambleBit
  by_cases hu : u = s.cfg.preambleBit
  · by_cases hp : s.preCount.toNat + 1 = s.cfg.preLen
    · exact .inr (.inl ⟨hu, hp, by simp [hu, hp]⟩)
    · exact .inr (.inr ⟨hu, hp, by simp [hu, hp]⟩)
  · exact .inl ⟨hu, by simp [hu]⟩

/-- The end of a frame: back to Reset, with the record exactly when `CHECK` passes. -/
theorem completeFrame_cases (s : State) (f : BitVec s.cfg.frameBits) :
    (validate s.cfg f = true ∧ s.completeFrame f = ⟨s.enterReset, some (extract s.cfg f), some .frameComplete⟩) ∨
    (validate s.cfg f = false ∧ s.completeFrame f = ⟨s.enterReset, none, some .checkFail⟩) := by
  unfold State.completeFrame
  cases h : validate s.cfg f
  · exact .inr ⟨rfl, by simp⟩
  · exact .inl ⟨rfl, by simp⟩

/-- A bit action in DecodingPayload: overflow, the end of the frame, or an append. -/
theorem payloadBit_cases (s : State) (u : Bool) :
    (s.accCount.toNat = s.cfg.accWidth ∧ s.payloadBit u = s.abort .overflow) ∨
    (s.accCount.toNat ≠ s.cfg.accWidth ∧ s.accCount.toNat + 1 = s.cfg.frameBits ∧
      s.payloadBit u = s.completeFrame (BitVec.ofNat s.cfg.frameBits (s.appended u))) ∨
    (s.accCount.toNat ≠ s.cfg.accWidth ∧ s.accCount.toNat + 1 ≠ s.cfg.frameBits ∧
      s.payloadBit u =
        ⟨{ s with accValue := s.appended u, accCount := BitVec.ofNat 16 (s.accCount.toNat + 1) }, none, none⟩) := by
  unfold State.payloadBit
  by_cases hw : s.accCount.toNat = s.cfg.accWidth
  · exact .inl ⟨hw, by simp [hw]⟩
  · by_cases hk : s.accCount.toNat + 1 = s.cfg.frameBits
    · exact .inr (.inl ⟨hw, hk, by simp only [hw, hk, if_false, if_true]⟩)
    · exact .inr (.inr ⟨hw, hk, by simp only [hw, hk, if_false]⟩)

/-- The part of FEED outside Reset: a Reset symbol, a violation, a first half, or a bit. -/
theorem lineEvent_cases (s : State) (level : Bool) (d : BitVec 32) (act : State → Bool → FrameResult) :
    (classify s.cfg level d = .reset ∧ s.lineEvent level d act = s.abort .timingMismatch) ∨
    (classify s.cfg level d ≠ .reset ∧ (manStep s.cfg.manInitLevel s.man (classify s.cfg level d)).viol = true ∧
      s.lineEvent level d act = s.abort .illegalTransition) ∨
    (classify s.cfg level d ≠ .reset ∧ (manStep s.cfg.manInitLevel s.man (classify s.cfg level d)).viol = false ∧
      (manStep s.cfg.manInitLevel s.man (classify s.cfg level d)).out = none ∧
      s.lineEvent level d act =
        ⟨s.setMan (manStep s.cfg.manInitLevel s.man (classify s.cfg level d)).next, none, none⟩) ∨
    ∃ b, classify s.cfg level d ≠ .reset ∧
      (manStep s.cfg.manInitLevel s.man (classify s.cfg level d)).viol = false ∧
      (manStep s.cfg.manInitLevel s.man (classify s.cfg level d)).out = some b ∧
      s.lineEvent level d act =
        act (s.setMan (manStep s.cfg.manInitLevel s.man (classify s.cfg level d)).next) (b ^^ s.cfg.invertBits) := by
  unfold State.lineEvent
  by_cases hs : classify s.cfg level d = .reset
  · exact .inl ⟨hs, by simp [hs]⟩
  · cases hv : (manStep s.cfg.manInitLevel s.man (classify s.cfg level d)).viol
    · cases ho : (manStep s.cfg.manInitLevel s.man (classify s.cfg level d)).out with
      | none => exact .inr (.inr (.inl ⟨hs, rfl, rfl, by simp [hs, hv, ho]⟩))
      | some b => exact .inr (.inr (.inr ⟨b, hs, rfl, rfl, by simp [hs, hv, ho]⟩))
    · exact .inr (.inl ⟨hs, rfl, by simp [hs, hv]⟩)

/-- The frame machine by its state. -/
theorem frameStep_cases (s : State) (level : Bool) (d : BitVec 32) :
    (s.frame = .reset ∧ isStart s.cfg level d = true ∧ s.frameStep level d = ⟨s.startFrame, none, none⟩) ∨
    (s.frame = .reset ∧ isStart s.cfg level d = false ∧ s.frameStep level d = ⟨s, none, none⟩) ∨
    (s.frame = .checkPreamble ∧ s.frameStep level d = s.lineEvent level d State.preambleBit) ∨
    (s.frame = .decodingPayload ∧ s.frameStep level d = s.lineEvent level d State.payloadBit) := by
  unfold State.frameStep
  cases hf : s.frame
  · cases hs : isStart s.cfg level d
    · exact .inr (.inl ⟨rfl, rfl, by simp⟩)
    · exact .inl ⟨rfl, rfl, by simp⟩
  · exact .inr (.inr (.inl ⟨rfl, rfl⟩))
  · exact .inr (.inr (.inr ⟨rfl, rfl⟩))

/-- A taken FEED ran on a live instance and is the frame step's result with the record on the port. -/
theorem execFeed_next {level : Bool} {d : BitVec 32} {s t : State} (h : execFeed level d s = .next t) :
    s.live = true ∧
      t = State.drive { (s.frameStep level d).state with live := true } (s.frameStep level d).record := by
  unfold execFeed at h
  split at h
  · exact ⟨‹_›, by injection h with h; exact h.symm⟩
  · cases h

/-- A taken RESET ran on a live instance. -/
theorem execReset_next {s t : State} (h : execReset s = .next t) :
    s.live = true ∧ t = State.drive { s.enterReset with live := true } none := by
  unfold execReset at h
  split at h
  · exact ⟨‹_›, by injection h with h; exact h.symm⟩
  · cases h

/-- A taken FREE ran on a live instance. -/
theorem execFree_next {s t : State} (h : execFree s = .next t) :
    s.live = true ∧ t = State.drive { s with live := false } none := by
  unfold execFree at h
  split at h
  · exact ⟨‹_›, by injection h with h; exact h.symm⟩
  · cases h

end Sys2Proof.Machine
end

