-- ==== Sys2Proof/Laws/PerInstr.lean ====
section
/-!
SUPPORT. Statements for all instructions, made per instruction.
-/

namespace Sys2Proof.Laws

/-- The word that spells an instruction is a well-formed word. -/
def EncodingWellFormed.Statement (i : Instr) : Prop := (encode i).wellFormed = true

theorem EncodingWellFormed.feed (level : Bool) (duration : BitVec 32) :
    EncodingWellFormed.Statement (.feed level duration) := by
  have h : (commandWord 0b00#2 level duration).toNat < 2 ^ 33 := by
    have hw : commandWord 0b00#2 level duration = (BitVec.ofBool level ++ duration).setWidth 35 := by
      apply BitVec.eq_of_getLsbD_eq
      intro i hi
      simp only [commandWord, BitVec.getLsbD_append, BitVec.getLsbD_setWidth]
      by_cases h1 : i < 32
      · simp [h1, hi]
        omega
      · by_cases h2 : i < 33 <;> simp [h1, h2, hi]
        intro h3
        omega
    rw [hw, BitVec.toNat_setWidth]
    exact Nat.lt_of_le_of_lt (Nat.mod_le _ _) (BitVec.isLt _)
  simp only [EncodingWellFormed.Statement, encode, PortWord.wellFormed, Nat.div_eq_of_lt h, beq_self_eq_true,
    Bool.true_or]

theorem EncodingWellFormed.reset : EncodingWellFormed.Statement .reset := by unfold EncodingWellFormed.Statement; decide
theorem EncodingWellFormed.alloc : EncodingWellFormed.Statement .alloc := by unfold EncodingWellFormed.Statement; decide
theorem EncodingWellFormed.free : EncodingWellFormed.Statement .free := by unfold EncodingWellFormed.Statement; decide
theorem EncodingWellFormed.shortLow : EncodingWellFormed.Statement .shortLow := by
  unfold EncodingWellFormed.Statement; decide
theorem EncodingWellFormed.shortHigh : EncodingWellFormed.Statement .shortHigh := by
  unfold EncodingWellFormed.Statement; decide
theorem EncodingWellFormed.longLow : EncodingWellFormed.Statement .longLow := by
  unfold EncodingWellFormed.Statement; decide
theorem EncodingWellFormed.longHigh : EncodingWellFormed.Statement .longHigh := by
  unfold EncodingWellFormed.Statement; decide
theorem EncodingWellFormed.resetSymbol : EncodingWellFormed.Statement .resetSymbol := by
  unfold EncodingWellFormed.Statement; decide

end Sys2Proof.Laws
end

