-- ==== Sys2Proof/Laws/Step.lean ====
section
/-!
SUPPORT. What the fetch and the step can do, each said once.
-/

namespace Sys2Proof.Machine

/-- What the fetch finds. -/
theorem fetch_cases (s : State) :
    (s.input = [] ∧ s.fetch = .idle (s.drive none)) ∨
    (∃ w rest, s.input = .cmd w :: rest ∧ s.cfg.admitted = false ∧ s.fetch = .refuse .badConfig) ∨
    (∃ w rest, s.input = .cmd w :: rest ∧ s.cfg.admitted = true ∧
      s.fetch = State.decoded { s with input := rest } (.cmd w)) ∨
    (∃ c rest, s.input = .sym c :: rest ∧ s.fetch = State.decoded { s with input := rest } (.sym c)) := by
  unfold State.fetch
  rcases hi : s.input with _ | ⟨_ | c, rest⟩
  · exact .inl ⟨rfl, rfl⟩
  · rename_i w
    cases ha : s.cfg.admitted
    · exact .inr (.inl ⟨w, rest, rfl, rfl, by simp⟩)
    · exact .inr (.inr (.inl ⟨w, rest, rfl, rfl, by simp⟩))
  · exact .inr (.inr (.inr ⟨c, rest, rfl, rfl⟩))

/-- A decoded word runs its instruction, or is refused by name. -/
theorem decoded_cases (s : State) (p : PortWord) :
    (∃ i, decode p = .instr i ∧ s.decoded p = .run i s) ∨
    (∃ r, decode p = .reject r ∧ s.decoded p = .refuse (Refusal.ofReject r)) := by
  unfold State.decoded
  cases decode p with
  | instr i => exact .inl ⟨i, rfl, rfl⟩
  | reject r => exact .inr ⟨r, rfl, rfl⟩

/-- A taken step was idle, or ran the instruction that its first word spells, with the word taken. -/
theorem step_next {s t : State} (h : step s = .next t) :
    (s.input = [] ∧ t = s.drive none) ∨
    ∃ p rest i, s.input = p :: rest ∧ decode p = .instr i ∧ exec i { s with input := rest } = .next t := by
  unfold step at h
  rcases fetch_cases s with ⟨hi, hf⟩ | ⟨w, rest, hi, -, hf⟩ | ⟨w, rest, hi, -, hf⟩ | ⟨c, rest, hi, hf⟩
  · rw [hf] at h
    injection h with h
    exact .inl ⟨hi, h.symm⟩
  · rw [hf] at h
    cases h
  · rcases decoded_cases { s with input := rest } (.cmd w) with ⟨i, hd, hr⟩ | ⟨r, -, hr⟩
    · rw [hf, hr] at h
      exact .inr ⟨_, rest, i, hi, hd, h⟩
    · rw [hf, hr] at h
      cases h
  · rcases decoded_cases { s with input := rest } (.sym c) with ⟨i, hd, hr⟩ | ⟨r, -, hr⟩
    · rw [hf, hr] at h
      exact .inr ⟨_, rest, i, hi, hd, h⟩
    · rw [hf, hr] at h
      cases h

end Sys2Proof.Machine
end

