-- ==== Sys2Proof/Tests/Slice0.lean ====
section
/-!
SUPPORT. The model's own tests. Expected results are the spec's: a comment names the rule's worked example or the vector
of spec/95_test_vectors.md. The second half holds, for each obligation with hypotheses, a theorem that meets them all.
-/

namespace Sys2Proof.Tests

open Sys2Proof Sys2Proof.Machine

/-! ### Configurations and states -/

/-- `TC1` of spec/95_test_vectors.md. -/
def tc1 : Cfg := { Cfg.sample with preambleLen := .given 4#16, checkSel := .oddParity }

/-- `TC2`. -/
def tc2 : Cfg :=
  { tc1 with
    preambleLen := .given 2#16
    minBits := 8#16
    accWidth := 8
    idShift := 4
    idWidth := 4
    pShift := 0
    pWidth := 4 }

/-- `TC3`. -/
def tc3 : Cfg := { tc1 with invertBits := true, preambleBit := true }

/-- A live state under `c`. -/
def at_ (c : Cfg) (f : Frame) (ph : ManPhase) (lv : Bool) (pre : Nat) (acc cnt : Nat) : State :=
  { State.reset with
    cfg := c
    live := true
    frame := f
    manPhase := ph
    manLvl := lv
    preCount := BitVec.ofNat 16 pre
    accValue := acc
    accCount := BitVec.ofNat 16 cnt }

/-- `INIT`, live. -/
def init (c : Cfg) : State := at_ c .reset .awaitingFirstHalf false 0 0 0

/-- CheckPreamble with nothing counted. -/
def pre (c : Cfg) : State := at_ c .checkPreamble .awaitingFirstHalf false 0 0 0

/-- The stand-alone line decoder in a given state, under `SAMPLE`. -/
def line (ph : ManPhase) (lv : Bool) : State := { State.reset with ld := ⟨ph, lv⟩ }

/-- With words waiting. -/
def given_ (s : State) (ps : List PortWord) : State := { s with input := ps }

/-- A configuration that breaks R135 item 1 and no other. -/
def badCfg : Cfg := { tc1 with toleranceUs := 0#32 }

/-! ### Well-formedness, words and decoding -/

/-- Ill-formed words: reserved operand bits at both ends of the field (W8, W9), reserved symbol codes (R52). -/
theorem test_ill_formed_words :
    PortWord.wellFormed (.cmd 0x200000001#35) = false ∧ PortWord.wellFormed (.cmd 0x500000000#35) = false ∧
    PortWord.wellFormed (.cmd 0x680000000#35) = false ∧ PortWord.wellFormed (.sym 0b101#3) = false ∧
    PortWord.wellFormed (.sym 0b110#3) = false ∧ PortWord.wellFormed (.sym 0b111#3) = false := by decide

/-- The same words are refused by their rule's name. -/
theorem test_ill_formed_words_refused :
    decode (.cmd 0x200000001#35) = .reject .reservedOperandBits ∧
    decode (.cmd 0x500000000#35) = .reject .reservedOperandBits ∧
    decode (.cmd 0x680000000#35) = .reject .reservedOperandBits ∧ decode (.sym 0b101#3) = .reject .reservedSymbol ∧
    decode (.sym 0b110#3) = .reject .reservedSymbol ∧ decode (.sym 0b111#3) = .reject .reservedSymbol := by decide

/-- Configurations that each break one item of R135. -/
theorem test_ill_formed_configurations :
    Cfg.admitted { tc1 with toleranceUs := 0#32 } = false ∧ Cfg.admitted { tc1 with toleranceUs := 62#32 } = false ∧
    Cfg.admitted { tc1 with longUs := 123#32, toleranceUs := 1#32 } = false ∧
    Cfg.admitted { tc1 with preambleLen := .given 0#16 } = false ∧ Cfg.admitted { tc1 with minBits := 65#16 } = false ∧
    Cfg.admitted { tc1 with accWidth := 65536 } = false ∧ Cfg.admitted { tc1 with idWidth := 25 } = false ∧
    Cfg.admitted { tc1 with pShift := 52 } = false ∧ Cfg.admitted { tc1 with pWidth := 17 } = false ∧
    Cfg.admitted { tc1 with tShift := 53 } = false ∧ Cfg.admitted { tc1 with tempBias := 32769 } = false ∧
    Cfg.admitted { tc1 with tWidth := 16, tempBias := 0 } = false ∧
    Cfg.admitted { tc1 with checkSel := .alwaysAccept } = false ∧
    Cfg.admitted { tc1 with checkSel := .accepts [4, 6] } = false := by decide

/-- `SAMPLE` and the test configurations are admitted (R135, spec/95). -/
theorem test_admitted_configurations :
    Cfg.sample.admitted = true ∧ tc1.admitted = true ∧ tc2.admitted = true ∧ tc3.admitted = true ∧
    Cfg.admitted { tc1 with checkSel := .accepts [4, 7] } = true := by decide

/-- The worked encodings of 30_encoding.md, bit 34 first: `OP`, `LEVEL`, `DURATION`. -/
theorem test_command_words_decode :
    decode (.cmd 0b00100000000000000000000000111101000#35) = .instr (.feed true 488#32) ∧
    decode (.cmd 0b00000000000000000000000000001111011#35) = .instr (.feed false 123#32) ∧
    decode (.cmd 0b01000000000000000000000000000000000#35) = .instr .reset ∧
    decode (.cmd 0b10000000000000000000000000000000000#35) = .instr .alloc ∧
    decode (.cmd 0b11000000000000000000000000000000000#35) = .instr .free := by decide

/-- The symbol codes of R52. -/
theorem test_symbol_words_decode :
    decode (.sym 0b000#3) = .instr .shortLow ∧ decode (.sym 0b001#3) = .instr .shortHigh ∧
    decode (.sym 0b010#3) = .instr .longLow ∧ decode (.sym 0b011#3) = .instr .longHigh ∧
    decode (.sym 0b100#3) = .instr .resetSymbol := by decide

/-- The encoder gives the worked encodings (30_encoding.md). -/
theorem test_encoder :
    encode (.feed true 488#32) = .cmd 0x1000001E8#35 ∧ encode (.feed false 123#32) = .cmd 0x00000007B#35 ∧
    encode .reset = .cmd 0x200000000#35 ∧ encode .alloc = .cmd 0x400000000#35 ∧ encode .free = .cmd 0x600000000#35 ∧
    encode .longHigh = .sym 0b011#3 ∧ encode .resetSymbol = .sym 0b100#3 := by decide

/-! ### Sub-blocks -/

/-- R64 and the corners of R59: the window ends of `SAMPLE`. -/
theorem test_classifier_boundaries :
    classify Cfg.sample true 62#32 = .reset ∧ classify Cfg.sample true 63#32 = .shortHigh ∧
    classify Cfg.sample false 183#32 = .shortLow ∧ classify Cfg.sample false 184#32 = .longLow ∧
    classify Cfg.sample true 304#32 = .longHigh ∧ classify Cfg.sample true 305#32 = .reset ∧
    classify Cfg.sample true 0#32 = .reset ∧ classify Cfg.sample true 4294967295#32 = .reset := by decide

/-- E1.4 and R63: the start window of `SAMPLE`. -/
theorem test_start_boundaries :
    isStart Cfg.sample true 427#32 = false ∧ isStart Cfg.sample true 428#32 = true ∧
    isStart Cfg.sample true 548#32 = true ∧ isStart Cfg.sample true 549#32 = false ∧
    isStart Cfg.sample false 488#32 = false := by decide

/-- The whole table of R67, row by row, with `I = (AWAIT, 0)`. -/
theorem test_line_decoder_table :
    ([.shortLow, .shortHigh, .longLow, .longHigh, .reset].map (manStep false ⟨.awaitingFirstHalf, false⟩) =
      [⟨⟨.haveFirstHalf, false⟩, none, false⟩, manViolation false, ⟨⟨.awaitingFirstHalf, true⟩, some true, false⟩,
        manViolation false, ⟨manInit tc1, none, false⟩]) ∧
    ([.shortLow, .shortHigh, .longLow, .longHigh, .reset].map (manStep false ⟨.awaitingFirstHalf, true⟩) =
      [manViolation false, ⟨⟨.haveFirstHalf, true⟩, none, false⟩, manViolation false,
        ⟨⟨.awaitingFirstHalf, false⟩, some false, false⟩, ⟨manInit tc1, none, false⟩]) ∧
    ([.shortLow, .shortHigh, .longLow, .longHigh, .reset].map (manStep false ⟨.haveFirstHalf, false⟩) =
      [manViolation false, ⟨⟨.awaitingFirstHalf, false⟩, some false, false⟩, manViolation false, manViolation false,
        ⟨manInit tc1, none, false⟩]) ∧
    ([.shortLow, .shortHigh, .longLow, .longHigh, .reset].map (manStep false ⟨.haveFirstHalf, true⟩) =
      [⟨⟨.awaitingFirstHalf, true⟩, some true, false⟩, manViolation false, manViolation false, manViolation false,
        ⟨manInit tc1, none, false⟩]) := by decide

/-- R78 by hand for `[1, 1, 0]` from level 0: cells `0 01 01 1(0)`, runs L2 H1 L1 H2. -/
theorem test_fixture_encoder :
    manchesterEncode false [true, true, false] = [.longLow, .shortHigh, .shortLow, .longHigh] := by decide

/-- R101's worked example (E1.3). -/
theorem test_extract_worked_example :
    extract Cfg.sample 0xfffe088d4980444#60 =
      ⟨0x223526#32, 2#16, 18#16, .unknown, 0xfffe088d4980444, 60#16⟩ := by decide

/-- R97's worked example, and E1.5's corrupted payload. -/
theorem test_check_odd_worked_example :
    validate tc1 0xfffe088d4980444#60 = true ∧ validate tc1 0xfffe088d4980445#60 = false := by decide

/-- R58 for `SAMPLE`, R57's number forms, a comment, and lines that are none. -/
theorem test_assembler_lines :
    assembleLine Cfg.sample "START".toList = some [.cmd 0x1000001E8#35] ∧
    assembleLine Cfg.sample "FEED L 0x7b ; low".toList = some [.cmd 0x00000007B#35] ∧
    assembleLine Cfg.sample "LL".toList = some [.cmd 0x0000000F4#35] ∧
    assembleLine Cfg.sample "BITS 1 0".toList = some [.cmd 0x0000000F4#35, .cmd 0x1000000F4#35] ∧
    assembleLine Cfg.sample "FEED H 4294967296".toList = none ∧ assembleLine Cfg.sample "FEED X 1".toList = none := by
  decide

/-! ### One step of each instruction -/

/-- R83's worked example: `FEED H 488` in `INIT` goes to CheckPreamble. -/
theorem test_feed_start : exec (.feed true 488#32) (init Cfg.sample) = .next (pre Cfg.sample) := by rfl

/-- R86: the last bit of a frame under `TC2`, payload `0x47` (four one bits) is rejected, `0x46` (three) gives its
record; both leave `INIT`. -/
theorem test_feed_completes :
    exec (.feed true 123#32) (at_ tc2 .decodingPayload .haveFirstHalf false 2 0x23 7) =
      .next { init tc2 with out := ⟨true, 4#32, 6#16, 20#16, 0b10#2, 0x46, 8#16⟩ } ∧
    exec (.feed false 244#32) (at_ tc2 .decodingPayload .awaitingFirstHalf false 2 0x23 7) = .next (init tc2) :=
  ⟨rfl, rfl⟩

/-- R110's worked example. -/
theorem test_reset_command :
    exec .reset (at_ tc1 .decodingPayload .haveFirstHalf true 4 0x3fff 30) = .next (init tc1) := by rfl

/-- R111's worked example, through the step, from power-on, with the word placed as the host places it. -/
theorem test_alloc_at_power_on :
    step (State.reset.withFetchWord 40 0x400000000) = .next (init Cfg.sample) := by rfl

/-- R112's worked example: FREE, then FEED. -/
theorem test_free_then_feed :
    exec .free (init Cfg.sample) = .next State.reset ∧
    exec (.feed true 488#32) State.reset = .refused .notAllocated := ⟨rfl, rfl⟩

/-- R69's and R70's worked examples, on the symbol input. -/
theorem test_short_symbols :
    exec .shortLow (line .haveFirstHalf true) = .next { line .awaitingFirstHalf true with ldBit := some true } ∧
    exec .shortHigh (line .haveFirstHalf false) = .next { line .awaitingFirstHalf false with ldBit := some false } :=
  ⟨rfl, rfl⟩

/-- R71's and R72's worked examples. -/
theorem test_long_symbols :
    exec .longLow (line .awaitingFirstHalf false) = .next { line .awaitingFirstHalf true with ldBit := some true } ∧
    exec .longHigh (line .awaitingFirstHalf true) = .next { line .awaitingFirstHalf false with ldBit := some false } :=
  ⟨rfl, rfl⟩

/-- R73's worked example, through the step. -/
theorem test_reset_symbol :
    step ((line .haveFirstHalf true).withFetchWord 8 0b100) = .next (line .awaitingFirstHalf false) := by rfl

/-! ### Witnesses of the obligations' hypotheses -/

theorem witness_DecodeOfEncodeIsTheInstruction : Instr.wellFormed (.feed true 4294967295#32) = true := by decide

theorem witness_EncodeOfDecodeIsTheWord : decode (.cmd 0x1FFFFFFFF#35) = .instr (.feed true 4294967295#32) := by decide

/-- The least and the greatest refused word. -/
theorem witness_ReservedOperandBitsAreRefused :
    ((0x200000001#35).toNat / 2 ^ 33 ≠ 0 ∧ (0x200000001#35).toNat % 2 ^ 33 ≠ 0) ∧
    ((0x7FFFFFFFF#35).toNat / 2 ^ 33 ≠ 0 ∧ (0x7FFFFFFFF#35).toNat % 2 ^ 33 ≠ 0) := by decide

theorem witness_FeedOperandsAreTheWordsFields : decode (.cmd 0x0FFFFFFFF#35) = .instr (.feed false 4294967295#32) := by
  decide

theorem witness_ReservedSymbolCodesAreRefused :
    (given_ State.reset [.sym 0b101#3]).input = .sym 0b101#3 :: [] ∧ 4 < (0b101#3).toNat := by decide

/-- One witness for each clause. -/
theorem witness_StepRunsTheDecodedCommand :
    ((given_ (init badCfg) [.cmd 0#35]).input = .cmd 0#35 :: [] ∧ badCfg.admitted = false) ∧
    ((given_ State.reset [.cmd 0x400000000#35]).input = .cmd 0x400000000#35 :: [] ∧
      State.reset.cfg.admitted = true ∧ decode (.cmd 0x400000000#35) = .instr .alloc) ∧
    ((given_ State.reset [.cmd 0x400000001#35]).input = .cmd 0x400000001#35 :: [] ∧
      State.reset.cfg.admitted = true ∧ decode (.cmd 0x400000001#35) = .reject .reservedOperandBits) := by decide

theorem witness_StepRunsTheDecodedSymbol :
    (given_ (init badCfg) [.sym 0b100#3]).input = .sym 0b100#3 :: [] ∧ decode (.sym 0b100#3) = .instr .resetSymbol := by
  decide

theorem witness_IdleStepHoldsTheState : State.reset.input = [] := by decide

theorem witness_AdmittedCommandsOnALiveInstanceComplete :
    (given_ (init tc1) [.cmd 0x1FFFFFFFF#35]).input = .cmd 0x1FFFFFFFF#35 :: [] ∧ tc1.admitted = true ∧
    (init tc1).live = true ∧ decode (.cmd 0x1FFFFFFFF#35) = .instr (.feed true 4294967295#32) := by decide

theorem witness_StepNeverWritesTheConfiguration :
    step (given_ (init tc1) [.cmd 0x1000001E8#35]) = .next (pre tc1) := by rfl

theorem witness_OnlyAllocHasAStepWithoutAnInstance :
    (given_ State.reset [.cmd 0x400000000#35]).input = .cmd 0x400000000#35 :: [] ∧ State.reset.live = false ∧
    step (given_ State.reset [.cmd 0x400000000#35]) = .next (init Cfg.sample) := ⟨rfl, rfl, rfl⟩

/-- Live, with a FEED that ends an attempt; and not live. -/
theorem witness_ResetTableHolds :
    (pre tc1).live = true ∧ exec (.feed false 700#32) (pre tc1) = .next (init tc1) ∧
    endCause (.feed false 700#32) (pre tc1) = some .timingMismatch ∧ State.reset.live = false := ⟨rfl, rfl, rfl, rfl⟩

/-- The invariant does not look at the words that wait. -/
theorem inv_given {s : State} (h : s.Inv) (ps : List PortWord) : (given_ s ps).Inv :=
  ⟨h.admitted, h.count_short, h.value_fits, h.empty_outside_payload, h.preamble_running, h.preamble_done,
    h.init_in_reset, h.port_legal⟩

/-- The state one bit short of a frame under `TC2` meets the invariant. -/
theorem inv_one_bit_short : (at_ tc2 .decodingPayload .haveFirstHalf false 2 0x23 7).Inv where
  admitted := by decide
  count_short := by decide
  value_fits := by decide
  empty_outside_payload := by decide
  preamble_running := by decide
  preamble_done := by decide
  init_in_reset := by intro h; cases h
  port_legal := by unfold OutPort.Legal; decide

/-- `INIT` under `TC2` meets it. -/
theorem inv_init : (init tc2).Inv where
  admitted := by decide
  count_short := by decide
  value_fits := by decide
  empty_outside_payload := by decide
  preamble_running := by decide
  preamble_done := by decide
  init_in_reset := by unfold State.AtInit; decide
  port_legal := by unfold OutPort.Legal; decide

/-- CheckPreamble one bit short of its end under `TC2` meets it. -/
theorem inv_preamble_short :
    (at_ tc2 .checkPreamble .awaitingFirstHalf false 1 0 0).Inv ∧
    (at_ tc2 .checkPreamble .haveFirstHalf false 1 0 0).Inv ∧
    (at_ tc2 .checkPreamble .haveFirstHalf false 0 0 0).Inv := by
  refine ⟨⟨?_, ?_, ?_, ?_, ?_, ?_, ?_, ?_⟩, ⟨?_, ?_, ?_, ?_, ?_, ?_, ?_, ?_⟩, ⟨?_, ?_, ?_, ?_, ?_, ?_, ?_, ?_⟩⟩ <;>
    (try unfold State.AtInit) <;> (try unfold OutPort.Legal) <;> decide

/-- The step that shows a record. -/
theorem witness_EveryStepKeepsTheInvariant :
    (given_ (at_ tc2 .decodingPayload .haveFirstHalf false 2 0x23 7) [.cmd 0x10000007B#35]).Inv ∧
    step (given_ (at_ tc2 .decodingPayload .haveFirstHalf false 2 0x23 7) [.cmd 0x10000007B#35]) =
      .next { init tc2 with out := ⟨true, 4#32, 6#16, 20#16, 0b10#2, 0x46, 8#16⟩ } :=
  ⟨inv_given inv_one_bit_short _, rfl⟩

/-- A run that ends in CheckPreamble, and the run of no steps. -/
theorem witness_AccumulatorIsShortAndEmptyOutsidePayload :
    ((given_ (init tc2) [.cmd 0x1000001E8#35]).Inv ∧
      stateAfter 1 (given_ (init tc2) [.cmd 0x1000001E8#35]) = some (pre tc2) ∧ (pre tc2).frame = .checkPreamble) ∧
    ((given_ (init tc2) []).Inv ∧ stateAfter 0 (given_ (init tc2) []) = some (init tc2) ∧
      (init tc2).frame = .reset) := ⟨⟨inv_given inv_init _, rfl, rfl⟩, inv_given inv_init _, rfl, rfl⟩

theorem witness_AdmissionIsItsEightItems :
    (given_ (init badCfg) [.cmd 0#35]).cfg.admitted = false ∧
    (given_ (init badCfg) [.cmd 0#35]).input = .cmd 0#35 :: [] := by decide

/-- The least and the greatest flipped bit. -/
theorem witness_AdmittedCheckDetectsSingleBitErrors :
    tc2.admitted = true ∧ validate tc2 0x46#8 = true ∧ 0 < tc2.frameBits ∧ 7 < tc2.frameBits := by decide

theorem witness_AdmittedCheckIsNotAlwaysTrue : Cfg.sample.admitted = true := by decide

/-- A predicate that the law thins, and one that meets it. -/
theorem witness_CheckFormsReachEveryLawfulPredicate :
    (lawfulPart (fun f : BitVec 2 => f == 0#2 || f == 1#2 || f == 2#2 || f == 3#2) 0#2 = false) ∧
    (lawfulPart (fun f : BitVec 2 => f == 1#2 || f == 2#2) 1#2 = true ∧ 0 < 2 ∧ 1 < 2) ∧
    (∀ f : BitVec 1, (fun g : BitVec 1 => g == 1#1) f = true → ∀ i < 1,
      (fun g : BitVec 1 => g == 1#1) (f ^^^ BitVec.twoPow 1 i) = false) := by decide

theorem witness_WindowsAreIntegerRanges : 0 < 61 := by decide

/-- Both ends of the short and the long window, and the durations next to them. -/
theorem witness_ClassifierGivesTheSymbolOfItsWindow :
    Cfg.sample.IsShort 63#32 ∧ Cfg.sample.IsShort 183#32 ∧ Cfg.sample.IsLong 184#32 ∧ Cfg.sample.IsLong 304#32 ∧
    Cfg.sample.Unrecognised 62#32 ∧ Cfg.sample.Unrecognised 305#32 := by
  unfold Cfg.IsShort Cfg.IsLong Cfg.Unrecognised InWindow
  decide

theorem witness_AdmittedWindowsAreDisjoint :
    Cfg.sample.admitted = true ∧
    InWindow (183#32).toNat Cfg.sample.shortUs.toNat Cfg.sample.toleranceUs.toNat ∧
    InWindow (184#32).toNat Cfg.sample.longUs.toNat Cfg.sample.toleranceUs.toNat ∧ Cfg.sample.Unrecognised 305#32 := by
  unfold Cfg.Unrecognised InWindow
  decide

theorem witness_ShortLowFollowsItsRule :
    (line .awaitingFirstHalf false).ld = ⟨.awaitingFirstHalf, false⟩ ∧
    (line .haveFirstHalf true).ld = ⟨.haveFirstHalf, true⟩ ∧
    ((line .awaitingFirstHalf true).ld = ⟨.awaitingFirstHalf, true⟩ ∨
      (line .awaitingFirstHalf true).ld = ⟨.haveFirstHalf, false⟩) := by decide

theorem witness_ShortHighFollowsItsRule :
    (line .awaitingFirstHalf true).ld = ⟨.awaitingFirstHalf, true⟩ ∧
    (line .haveFirstHalf false).ld = ⟨.haveFirstHalf, false⟩ ∧
    ((line .haveFirstHalf true).ld = ⟨.awaitingFirstHalf, false⟩ ∨
      (line .haveFirstHalf true).ld = ⟨.haveFirstHalf, true⟩) := by decide

theorem witness_LongLowFollowsItsRule :
    (line .awaitingFirstHalf false).ld = ⟨.awaitingFirstHalf, false⟩ ∧
    (line .haveFirstHalf false).ld ≠ ⟨.awaitingFirstHalf, false⟩ := by decide

theorem witness_LongHighFollowsItsRule :
    (line .awaitingFirstHalf true).ld = ⟨.awaitingFirstHalf, true⟩ ∧
    (line .haveFirstHalf true).ld ≠ ⟨.awaitingFirstHalf, true⟩ := by decide

theorem witness_ViolationsAreExactlyTheThreeCases :
    (manStep false ⟨.haveFirstHalf, false⟩ .longLow).viol = true ∧ (pre tc1).live = true ∧ (pre tc1).frame ≠ .reset ∧
    (manStep (pre tc1).cfg.manInitLevel ⟨(pre tc1).manPhase, (pre tc1).manLvl⟩
      (classify (pre tc1).cfg true 123#32)).viol = true := by decide

theorem witness_ManchesterRoundTrip : [true] ≠ ([] : List Bool) := by decide

theorem witness_MachineReplaysManchesterBits :
    [true, true, false] ≠ ([] : List Bool) ∧
    State.reset.ld = ⟨.awaitingFirstHalf, State.reset.cfg.manInitLevel⟩ ∧
    (given_ State.reset [.sym 0b010#3, .sym 0b001#3, .sym 0b000#3, .sym 0b011#3]).input =
      (manchesterEncode State.reset.cfg.manInitLevel [true, true, false]).map (fun y => PortWord.sym y.code) ++ [] := by
  decide

theorem witness_FeedCompletesOnEveryLiveInstance : (pre tc1).live = true ∧ State.reset.live = false := by decide

/-- The ends of the start window, the durations next to them, and the level. -/
theorem witness_FeedInResetAsksOnlyTheStartCondition :
    (init tc1).live = true ∧ (init tc1).frame = .reset ∧ (init tc1).cfg.IsStartPulse true 428#32 ∧
    (init tc1).cfg.IsStartPulse true 548#32 ∧ ¬ (init tc1).cfg.IsStartPulse true 427#32 ∧
    ¬ (init tc1).cfg.IsStartPulse true 549#32 ∧ ¬ (init tc1).cfg.IsStartPulse false 488#32 := by
  unfold Cfg.IsStartPulse InWindow
  decide

/-- Each of the four kinds, at a window's end. -/
theorem witness_EveryEventIsOneOfFourKinds :
    (pre tc1).cfg.Unrecognised 62#32 ∧ (pre tc1).Breaks true 183#32 ∧ (pre tc1).TakesHalf false 63#32 ∧
    (pre tc1).Emits false 184#32 true := by
  unfold State.Breaks State.TakesHalf State.Emits Cfg.Unrecognised Cfg.IsShort Cfg.IsLong InWindow
  decide

/-- A duration in neither window, and the three violations of R81. -/
theorem witness_BadEventMidFrameReturnsToInit :
    (pre tc1).live = true ∧ (pre tc1).frame ≠ .reset ∧ (pre tc1).cfg.Unrecognised 305#32 ∧
    (pre tc1).Breaks true 123#32 ∧
    (at_ tc1 .decodingPayload .haveFirstHalf true 4 0 0).Breaks true 63#32 ∧
    (at_ tc1 .decodingPayload .haveFirstHalf true 4 0 0).Breaks false 304#32 := by
  unfold State.Breaks Cfg.Unrecognised Cfg.IsShort Cfg.IsLong InWindow
  decide

theorem witness_FirstHalfSymbolSuspendsTheLineDecoder :
    (pre tc1).live = true ∧ (pre tc1).frame ≠ .reset ∧ (pre tc1).TakesHalf false 183#32 := by
  unfold State.TakesHalf Cfg.IsShort InWindow
  decide

/-- A mismatch, the last preamble bit, and the one before it, under `TC1`. -/
theorem witness_PreambleBitFollowsItsRule :
    ((pre tc1).live = true ∧ (pre tc1).frame = .checkPreamble ∧ (pre tc1).Emits false 244#32 true ∧
      (true ^^ tc1.invertBits) ≠ tc1.preambleBit) ∧
    ((at_ tc1 .checkPreamble .haveFirstHalf false 3 0 0).Emits true 123#32 false ∧
      (false ^^ tc1.invertBits) = tc1.preambleBit ∧ (3#16).toNat + 1 = tc1.preLen) ∧
    ((at_ tc1 .checkPreamble .haveFirstHalf false 2 0 0).Emits true 123#32 false ∧
      (false ^^ tc1.invertBits) = tc1.preambleBit ∧ (2#16).toNat + 1 ≠ tc1.preLen) := by
  unfold State.Emits Cfg.IsShort Cfg.IsLong InWindow
  decide

/-- A full accumulator; a frame that `CHECK` accepts and one that it rejects; the bit before the last. -/
theorem witness_PayloadBitFollowsItsRule :
    ((at_ tc2 .decodingPayload .haveFirstHalf false 2 0xff 8).live = true ∧
      (at_ tc2 .decodingPayload .haveFirstHalf false 2 0xff 8).frame = .decodingPayload ∧
      (at_ tc2 .decodingPayload .haveFirstHalf false 2 0xff 8).Emits true 123#32 false ∧
      (at_ tc2 .decodingPayload .haveFirstHalf false 2 0xff 8).accCount.toNat = tc2.accWidth) ∧
    ((at_ tc2 .decodingPayload .haveFirstHalf false 2 0x23 7).Emits true 123#32 false ∧ (7#16).toNat ≠ tc2.accWidth ∧
      (7#16).toNat + 1 = tc2.frameBits ∧ validate tc2 0x46#8 = true ∧ (2 * 0x23 + 0) % 2 ^ 8 = 0x46) ∧
    ((at_ tc2 .decodingPayload .awaitingFirstHalf false 2 0x23 7).Emits false 244#32 true ∧
      validate tc2 0x47#8 = false ∧ (2 * 0x23 + 1) % 2 ^ 8 = 0x47) ∧
    ((at_ tc2 .decodingPayload .awaitingFirstHalf false 2 0x11 6).Emits false 244#32 true ∧
      (6#16).toNat ≠ tc2.accWidth ∧ (6#16).toNat + 1 ≠ tc2.frameBits) := by
  unfold State.Emits Cfg.IsShort Cfg.IsLong InWindow
  decide

theorem witness_FeedIsTheCompleteFrameStep :
    (at_ tc2 .decodingPayload .haveFirstHalf false 2 0x23 7).live = true ∧
    (at_ tc2 .decodingPayload .haveFirstHalf false 2 0x23 7).accCount.toNat < tc2.minBits.toNat := by decide

/-- In Reset: a start pulse and none. -/
theorem witness_FrameStateTransitionTable_reset :
    (init tc2).Inv ∧ (init tc2).live = true ∧
    exec (.feed true 548#32) (init tc2) = .next (pre tc2) ∧ (init tc2).cfg.IsStartPulse true 548#32 ∧
    exec (.feed true 549#32) (init tc2) = .next (init tc2) ∧ ¬ (init tc2).cfg.IsStartPulse true 549#32 := by
  refine ⟨inv_init, rfl, rfl, ?_, rfl, ?_⟩ <;> unfold Cfg.IsStartPulse InWindow <;> decide

/-- In CheckPreamble: a bad event, a first half, a mismatch, the last bit. -/
theorem witness_FrameStateTransitionTable_checkPreamble :
    ((at_ tc2 .checkPreamble .awaitingFirstHalf false 1 0 0).Inv ∧
      (at_ tc2 .checkPreamble .haveFirstHalf false 1 0 0).Inv) ∧
    (exec (.feed true 700#32) (at_ tc2 .checkPreamble .awaitingFirstHalf false 1 0 0) = .next (init tc2) ∧
      tc2.Unrecognised 700#32) ∧
    (exec (.feed false 123#32) (at_ tc2 .checkPreamble .awaitingFirstHalf false 1 0 0) =
        .next (at_ tc2 .checkPreamble .haveFirstHalf false 1 0 0) ∧
      (at_ tc2 .checkPreamble .awaitingFirstHalf false 1 0 0).TakesHalf false 123#32) ∧
    (exec (.feed false 244#32) (at_ tc2 .checkPreamble .awaitingFirstHalf false 1 0 0) = .next (init tc2) ∧
      (at_ tc2 .checkPreamble .awaitingFirstHalf false 1 0 0).Emits false 244#32 true ∧
      (true ^^ tc2.invertBits) ≠ tc2.preambleBit) ∧
    (exec (.feed true 123#32) (at_ tc2 .checkPreamble .haveFirstHalf false 1 0 0) =
        .next (at_ tc2 .decodingPayload .awaitingFirstHalf false 2 0 0) ∧
      (at_ tc2 .checkPreamble .haveFirstHalf false 1 0 0).Emits true 123#32 false ∧
      (false ^^ tc2.invertBits) = tc2.preambleBit ∧ (1#16).toNat + 1 = tc2.preLen) := by
  refine ⟨⟨inv_preamble_short.1, inv_preamble_short.2.1⟩, ⟨rfl, ?_⟩, ⟨rfl, ?_⟩, ⟨rfl, ?_⟩, ⟨rfl, ?_⟩⟩
  · unfold Cfg.Unrecognised InWindow; decide
  · unfold State.TakesHalf Cfg.IsShort InWindow; decide
  · unfold State.Emits Cfg.IsShort Cfg.IsLong InWindow; decide
  · unfold State.Emits Cfg.IsShort Cfg.IsLong InWindow; decide

/-- In CheckPreamble with two bits to go. -/
theorem witness_FrameStateTransitionTable_matching_bit :
    (at_ tc2 .checkPreamble .haveFirstHalf false 0 0 0).Inv ∧
    exec (.feed true 123#32) (at_ tc2 .checkPreamble .haveFirstHalf false 0 0 0) =
      .next (at_ tc2 .checkPreamble .awaitingFirstHalf false 1 0 0) ∧
    (at_ tc2 .checkPreamble .haveFirstHalf false 0 0 0).Emits true 123#32 false ∧
    (false ^^ tc2.invertBits) = tc2.preambleBit ∧ (0#16).toNat + 1 < tc2.preLen := by
  refine ⟨inv_preamble_short.2.2, rfl, ?_⟩
  unfold State.Emits Cfg.IsShort Cfg.IsLong InWindow
  decide

/-- In DecodingPayload: a bad event and the last bit, one bit short of a frame. -/
theorem witness_FrameStateTransitionTable_decodingPayload :
    (at_ tc2 .decodingPayload .haveFirstHalf false 2 0x23 7).Inv ∧
    (exec (.feed false 63#32) (at_ tc2 .decodingPayload .haveFirstHalf false 2 0x23 7) = .next (init tc2) ∧
      (at_ tc2 .decodingPayload .haveFirstHalf false 2 0x23 7).Breaks false 63#32) ∧
    (exec (.feed true 123#32) (at_ tc2 .decodingPayload .haveFirstHalf false 2 0x23 7) =
        .next { init tc2 with out := ⟨true, 4#32, 6#16, 20#16, 0b10#2, 0x46, 8#16⟩ } ∧
      (at_ tc2 .decodingPayload .haveFirstHalf false 2 0x23 7).Emits true 123#32 false ∧
      (7#16).toNat + 1 = tc2.frameBits) := by
  refine ⟨inv_one_bit_short, ⟨rfl, ?_⟩, rfl, ?_⟩
  · unfold State.Breaks Cfg.Unrecognised Cfg.IsShort Cfg.IsLong InWindow; decide
  · unfold State.Emits Cfg.IsShort Cfg.IsLong InWindow; decide

/-- In DecodingPayload: a first half, and a bit before the last. -/
theorem witness_FrameStateTransitionTable_payload_goes_on :
    (at_ tc2 .decodingPayload .awaitingFirstHalf false 2 0x11 6).Inv ∧
    (exec (.feed false 123#32) (at_ tc2 .decodingPayload .awaitingFirstHalf false 2 0x11 6) =
        .next (at_ tc2 .decodingPayload .haveFirstHalf false 2 0x11 6) ∧
      (at_ tc2 .decodingPayload .awaitingFirstHalf false 2 0x11 6).TakesHalf false 123#32) ∧
    (exec (.feed false 244#32) (at_ tc2 .decodingPayload .awaitingFirstHalf false 2 0x11 6) =
        .next (at_ tc2 .decodingPayload .awaitingFirstHalf true 2 0x23 7) ∧
      (at_ tc2 .decodingPayload .awaitingFirstHalf false 2 0x11 6).Emits false 244#32 true ∧
      (6#16).toNat + 1 < tc2.frameBits) := by
  refine ⟨⟨?_, ?_, ?_, ?_, ?_, ?_, ?_, ?_⟩, ⟨rfl, ?_⟩, rfl, ?_⟩
  · decide
  · decide
  · decide
  · decide
  · decide
  · decide
  · intro h; cases h
  · unfold OutPort.Legal; decide
  · unfold State.TakesHalf Cfg.IsShort InWindow; decide
  · unfold State.Emits Cfg.IsShort Cfg.IsLong InWindow; decide

theorem witness_OnlyACompletingFeedDrivesTheRecord :
    exec (.feed true 123#32) (at_ tc2 .decodingPayload .haveFirstHalf false 2 0x23 7) =
      .next { init tc2 with out := ⟨true, 4#32, 6#16, 20#16, 0b10#2, 0x46, 8#16⟩ } := by rfl

/-- A FEED for each cause, one without any, and a state that meets the invariant. -/
theorem witness_CausesLeaveInitAndOnlyCompletionARecord :
    (exec (.feed false 700#32) (pre tc1) = .next (init tc1) ∧
      endCause (.feed false 700#32) (pre tc1) = some .timingMismatch) ∧
    (exec (.feed true 123#32) (pre tc1) = .next (init tc1) ∧
      endCause (.feed true 123#32) (pre tc1) = some .illegalTransition) ∧
    (exec (.feed false 244#32) (pre tc1) = .next (init tc1) ∧
      endCause (.feed false 244#32) (pre tc1) = some .preambleMismatch) ∧
    (exec (.feed true 123#32) (at_ tc2 .decodingPayload .haveFirstHalf false 2 0xff 8) = .next (init tc2) ∧
      endCause (.feed true 123#32) (at_ tc2 .decodingPayload .haveFirstHalf false 2 0xff 8) = some .overflow) ∧
    (exec (.feed false 244#32) (at_ tc2 .decodingPayload .awaitingFirstHalf false 2 0x23 7) = .next (init tc2) ∧
      endCause (.feed false 244#32) (at_ tc2 .decodingPayload .awaitingFirstHalf false 2 0x23 7) = some .checkFail) ∧
    (exec (.feed true 123#32) (at_ tc2 .decodingPayload .haveFirstHalf false 2 0x23 7) =
        .next { init tc2 with out := ⟨true, 4#32, 6#16, 20#16, 0b10#2, 0x46, 8#16⟩ } ∧
      endCause (.feed true 123#32) (at_ tc2 .decodingPayload .haveFirstHalf false 2 0x23 7) = some .frameComplete) ∧
    (exec (.feed true 427#32) (init tc2) = .next (init tc2) ∧ endCause (.feed true 427#32) (init tc2) = none) ∧
    (init tc2).Inv :=
  ⟨⟨rfl, rfl⟩, ⟨rfl, rfl⟩, ⟨rfl, rfl⟩, ⟨rfl, rfl⟩, ⟨rfl, rfl⟩, ⟨rfl, rfl⟩, ⟨rfl, rfl⟩, inv_init⟩

/-- The three commands that end an attempt. -/
theorem witness_CausesLeaveInitAndOnlyCompletionARecord_commands :
    exec .reset (pre tc1) = .next (init tc1) ∧ exec .alloc (pre tc1) = .next (init tc1) ∧
    exec .free (init Cfg.sample) = .next State.reset := ⟨rfl, rfl, rfl⟩

/-- The event that ends the attempt has a start pulse's level and duration (R89). -/
theorem witness_EndingEventIsNotReexamined :
    exec (.feed true 488#32) (pre tc1) = .next (init tc1) ∧
    endCause (.feed true 488#32) (pre tc1) = some .timingMismatch := ⟨rfl, rfl⟩

theorem witness_ExtractedFieldsAreTheFrameValuesFields : Cfg.sample.admitted = true ∧ tc2.admitted = true := by decide

/-- `TC2` with a battery table: `0x46` is listed Ok and Low, `0x4c` Low. -/
def batteryCfg : Cfg := { tc2 with batteryTable := ⟨[0x46], [0x46, 0x4c]⟩ }

theorem witness_OutputPortShowsTheRecordsFields :
    batteryCfg.admitted = true ∧ batteryOf batteryCfg 0x46#8 = .ok ∧ batteryOf batteryCfg 0x4c#8 = .low ∧
    batteryOf batteryCfg 0x4f#8 = .unknown ∧
    step (given_ (init tc1) [.cmd 0x1000001E8#35]) = .next (pre tc1) := ⟨by decide, rfl, rfl, rfl, rfl⟩

/-- The clauses do not overlap: a frame value in both lists is under the first alone. -/
theorem witness_BatteryTablesReachEveryFunction :
    (0x46#8).toNat ∈ batteryCfg.batteryTable.okFrames ∧
    ((0x4c#8).toNat ∉ batteryCfg.batteryTable.okFrames ∧ (0x4c#8).toNat ∈ batteryCfg.batteryTable.lowFrames) ∧
    ((0xff#8).toNat ∉ batteryCfg.batteryTable.okFrames ∧ (0xff#8).toNat ∉ batteryCfg.batteryTable.lowFrames) := by decide

theorem witness_ResetForcesTheInitialState :
    (at_ tc1 .decodingPayload .haveFirstHalf true 4 0x3fff 30).live = true ∧ State.reset.live = false := by decide

theorem witness_FreeEndsTheInstance : (init tc1).live = true ∧ State.reset.live = false := by decide

theorem witness_CommandsOtherThanFeedAreIdempotent :
    exec .reset (pre tc1) = .next (init tc1) ∧ exec .alloc (pre tc1) = .next (init tc1) ∧
    exec .free (init Cfg.sample) = .next State.reset := ⟨rfl, rfl, rfl⟩

/-- A command's step and a symbol's. -/
theorem witness_CommandsAndSymbolsKeepApart :
    exec (.feed true 488#32) (init tc1) = .next (pre tc1) ∧
    exec .longLow (line .awaitingFirstHalf false) = .next { line .awaitingFirstHalf true with ldBit := some true } :=
  ⟨rfl, rfl⟩

/-- A frame under `TC2`: two preamble bits 0, payload `0x46`. -/
def frameEvents : List (Bool × BitVec 32) :=
  (manchesterEncode false [false, false, false, true, false, false, false, true, true, false]).filterMap
    (nominalEvent tc2)

/-- The payload `0x46`, first bit first. -/
def framePayload : List Bool := [false, true, false, false, false, true, true, false]

theorem witness_CompleteFrameYieldsItsRecord :
    tc2.admitted = true ∧ (init tc2).live = true ∧ (init tc2).frame = .reset ∧ tc2.IsStartPulse true 548#32 ∧
    framePayload.length = tc2.frameBits ∧
    frameEvents.map (fun e => classify tc2 e.1 e.2) = manchesterEncode tc2.manInitLevel
      ((List.replicate tc2.preLen tc2.preambleBit ++ framePayload).map fun b => b ^^ tc2.invertBits) ∧
    (given_ (init tc2) (encode (.feed true 548#32) :: frameEvents.map fun e => encode (.feed e.1 e.2))).input =
      encode (.feed true 548#32) :: frameEvents.map (fun e => encode (.feed e.1 e.2)) := by
  unfold Cfg.IsStartPulse InWindow
  decide

theorem witness_ReacquisitionAfterABadPulse :
    tc2.admitted = true ∧ (pre tc2).live = true ∧ (pre tc2).frame ≠ .reset ∧ tc2.Unrecognised 700#32 ∧
    (∀ e ∈ [(false, 488#32), (true, 427#32)], ¬ tc2.IsStartPulse e.1 e.2) ∧ tc2.IsStartPulse true 428#32 ∧
    framePayload.length = tc2.frameBits ∧
    frameEvents.map (fun e => classify tc2 e.1 e.2) = manchesterEncode tc2.manInitLevel
      ((List.replicate tc2.preLen tc2.preambleBit ++ framePayload).map fun b => b ^^ tc2.invertBits) ∧
    (given_ (pre tc2) (encode (.feed false 700#32) ::
        ([(false, 488#32), (true, 427#32)].map (fun e => encode (.feed e.1 e.2)) ++
          encode (.feed true 428#32) :: frameEvents.map fun e => encode (.feed e.1 e.2)))).input =
      encode (.feed false 700#32) ::
        ([(false, 488#32), (true, 427#32)].map (fun e => encode (.feed e.1 e.2)) ++
          encode (.feed true 428#32) :: frameEvents.map (fun e => encode (.feed e.1 e.2))) ∧
    validate tc2 (BitVec.ofNat tc2.frameBits (bitsValue framePayload)) = true := by
  refine ⟨by decide, by decide, by decide, ?_, ?_, ?_, by decide, by decide, rfl, by decide⟩
  · unfold Cfg.Unrecognised InWindow; decide
  · refine List.forall_mem_cons.mpr ⟨?_, List.forall_mem_cons.mpr ⟨?_, fun _ h => absurd h List.not_mem_nil⟩⟩ <;>
      unfold Cfg.IsStartPulse InWindow <;> decide
  · unfold Cfg.IsStartPulse InWindow; decide

theorem witness_PseudoCommandsSpellTheirSymbols :
    Cfg.sample.admitted = true ∧ 2 * Cfg.sample.longUs.toNat < 2 ^ 32 ∧ [true] ≠ ([] : List Bool) := by decide

end Sys2Proof.Tests
end

section
/-!
What one taken step can do, said once: the moves of the frame machine, the outcomes of an instruction, and the runs of
the machine. The statements about the state (10_state.md) are case splits on these.
-/

namespace Sys2Proof.Machine

/-- What one event can do to the frame machine (R83 to R86), by the result of the frame step. -/
inductive FrameMove (s : State) : FrameResult → Prop where
  /-- In Reset, an event that is no start condition (R83). -/
  | ignored (hf : s.frame = .reset) : FrameMove s ⟨s, none, none⟩
  /-- In Reset, the start condition (R83). -/
  | started (hf : s.frame = .reset) : FrameMove s ⟨s.startFrame, none, none⟩
  /-- A bad event, a preamble mismatch, an overflow or a failed `CHECK` (R84 to R87). -/
  | aborted (c : Cause) (hf : s.frame ≠ .reset) : FrameMove s (s.abort c)
  /-- The first half of a pair (R76). -/
  | suspended (m : ManState) (hf : s.frame ≠ .reset) : FrameMove s ⟨s.setMan m, none, none⟩
  /-- A preamble bit that leaves the preamble unfinished (R85). -/
  | preambleCounted (m : ManState) (hf : s.frame = .checkPreamble) (hp : s.preCount.toNat + 1 ≠ s.cfg.preLen) :
      FrameMove s ⟨{ s.setMan m with preCount := BitVec.ofNat 16 (s.preCount.toNat + 1) }, none, none⟩
  /-- The last preamble bit (R85). -/
  | preambleEnded (m : ManState) (hf : s.frame = .checkPreamble) (hp : s.preCount.toNat + 1 = s.cfg.preLen) :
      FrameMove s ⟨{ s.setMan m with
        preCount := BitVec.ofNat 16 (s.preCount.toNat + 1), frame := .decodingPayload }, none, none⟩
  /-- A payload bit that leaves the frame unfinished (R86). -/
  | appended (m : ManState) (u : Bool) (hf : s.frame = .decodingPayload)
      (hk : s.accCount.toNat + 1 ≠ s.cfg.frameBits) :
      FrameMove s ⟨{ s.setMan m with
        accValue := s.appended u, accCount := BitVec.ofNat 16 (s.accCount.toNat + 1) }, none, none⟩
  /-- The last payload bit of a frame that `CHECK` accepts (R86). -/
  | completed (f : BitVec s.cfg.frameBits) (hf : s.frame = .decodingPayload) (hv : validate s.cfg f = true) :
      FrameMove s ⟨s.enterReset, some (extract s.cfg f), some .frameComplete⟩

/-- A bit action in CheckPreamble, after the line decoder's step, is a move. -/
theorem preambleBit_move {s : State} (hf : s.frame = .checkPreamble) (m : ManState) (u : Bool) :
    FrameMove s ((s.setMan m).preambleBit u) := by
  rcases preambleBit_cases (s.setMan m) u with ⟨-, hr⟩ | ⟨-, hp, hr⟩ | ⟨-, hp, hr⟩ <;> rw [hr]
  · exact .aborted .preambleMismatch (by simp [hf])
  · exact .preambleEnded m hf hp
  · exact .preambleCounted m hf hp

/-- A bit action in DecodingPayload, after the line decoder's step, is a move. -/
theorem payloadBit_move {s : State} (hf : s.frame = .decodingPayload) (m : ManState) (u : Bool) :
    FrameMove s ((s.setMan m).payloadBit u) := by
  rcases payloadBit_cases (s.setMan m) u with ⟨-, hr⟩ | ⟨-, -, hr⟩ | ⟨-, hk, hr⟩ <;> rw [hr]
  · exact .aborted .overflow (by simp [hf])
  · rcases completeFrame_cases (s.setMan m) (BitVec.ofNat _ ((s.setMan m).appended u)) with ⟨hv, hc⟩ | ⟨-, hc⟩ <;>
      rw [hc]
    · exact .completed _ hf hv
    · exact .aborted .checkFail (by simp [hf])
  · exact .appended m u hf hk

/-- Outside Reset an event is a move whenever the frame state's bit action is one. -/
theorem lineEvent_move {s : State} {act : State → Bool → FrameResult} (level : Bool) (d : BitVec 32)
    (hf : s.frame ≠ .reset) (hact : ∀ m u, FrameMove s (act (s.setMan m) u)) :
    FrameMove s (s.lineEvent level d act) := by
  rcases lineEvent_cases s level d act with ⟨-, hr⟩ | ⟨-, -, hr⟩ | ⟨-, -, -, hr⟩ | ⟨b, -, -, -, hr⟩ <;> rw [hr]
  · exact .aborted .timingMismatch hf
  · exact .aborted .illegalTransition hf
  · exact .suspended _ hf
  · exact hact _ _

/-- Every frame step is one of the moves. -/
theorem frameStep_move (s : State) (level : Bool) (d : BitVec 32) : FrameMove s (s.frameStep level d) := by
  rcases frameStep_cases s level d with ⟨hf, -, hr⟩ | ⟨hf, -, hr⟩ | ⟨hf, hr⟩ | ⟨hf, hr⟩ <;> rw [hr]
  · exact .started hf
  · exact .ignored hf
  · exact lineEvent_move level d (by simp [hf]) (preambleBit_move hf)
  · exact lineEvent_move level d (by simp [hf]) (payloadBit_move hf)

/-- A move writes neither the configuration, nor the waiting words, nor the stand-alone line decoder. -/
theorem FrameMove.state_frame {s : State} {r : FrameResult} (h : FrameMove s r) :
    r.state.cfg = s.cfg ∧ r.state.input = s.input ∧ r.state.ld = s.ld := by
  cases h <;> exact ⟨rfl, rfl, rfl⟩

theorem State.enterReset_atInit (s : State) : s.enterReset.AtInit := ⟨rfl, rfl, rfl, rfl, rfl, rfl⟩

/-- A move with a cause, that is one that ends the frame attempt, ends at `INIT` (R87). -/
theorem FrameMove.atInit_of_cause {s : State} {r : FrameResult} {c : Cause} (h : FrameMove s r)
    (hc : r.cause = some c) : r.state.AtInit := by
  cases h with
  | aborted | completed => exact s.enterReset_atInit
  | ignored | started | suspended | preambleCounted | preambleEnded | appended => cases hc

/-- The instruction of a symbol on the stand-alone line decoder's input (R52). -/
def symbolInstr : Symbol → Instr
  | .shortLow => .shortLow
  | .shortHigh => .shortHigh
  | .longLow => .longLow
  | .longHigh => .longHigh
  | .reset => .resetSymbol

theorem exec_symbolInstr (y : Symbol) (s : State) : exec (symbolInstr y) s = s.lineSymbol y := by
  cases y <;> rfl

/-- The outcomes of a taken instruction (R66, R109 to R112), each with the next state. -/
inductive Taken (s : State) : Instr → State → Prop where
  | feed (level : Bool) (d : BitVec 32) (hl : s.live = true) :
      Taken s (.feed level d)
        (State.drive { (s.frameStep level d).state with live := true } (s.frameStep level d).record)
  | reset (hl : s.live = true) : Taken s .reset (State.drive { s.enterReset with live := true } none)
  | alloc : Taken s .alloc (State.drive { s.enterReset with live := true } none)
  | free (hl : s.live = true) : Taken s .free (State.drive { s with live := false } none)
  | symbol (y : Symbol) :
      Taken s (symbolInstr y)
        (State.driveLine { s with ld := (manStep s.cfg.manInitLevel s.ld y).next }
          (manStep s.cfg.manInitLevel s.ld y).out (manStep s.cfg.manInitLevel s.ld y).viol)

theorem lineSymbol_taken {s t : State} (y : Symbol) (h : s.lineSymbol y = .next t) : Taken s (symbolInstr y) t := by
  unfold State.lineSymbol at h
  injection h with h
  exact h ▸ .symbol y

/-- An instruction that answers a next state has one of these outcomes. -/
theorem exec_taken {i : Instr} {s t : State} (h : exec i s = .next t) : Taken s i t := by
  cases i with
  | feed level d =>
    obtain ⟨hl, rfl⟩ := execFeed_next h
    exact .feed level d hl
  | reset =>
    obtain ⟨hl, rfl⟩ := execReset_next h
    exact .reset hl
  | alloc =>
    injection (show execAlloc s = .next t from h) with h
    exact h ▸ .alloc
  | free =>
    obtain ⟨hl, rfl⟩ := execFree_next h
    exact .free hl
  | shortLow => exact lineSymbol_taken .shortLow h
  | shortHigh => exact lineSymbol_taken .shortHigh h
  | longLow => exact lineSymbol_taken .longLow h
  | longHigh => exact lineSymbol_taken .longHigh h
  | resetSymbol => exact lineSymbol_taken .reset h

/-- What every step keeps, every run keeps. -/
theorem stateAfter_keeps {P : State → Prop} (hstep : ∀ s t, P s → step s = .next t → P t) {s t : State} {k : Nat}
    (hs : P s) (h : stateAfter k s = some t) : P t := by
  induction k generalizing s with
  | zero =>
    injection h with h
    exact h ▸ hs
  | succ k ih =>
    unfold stateAfter at h
    split at h
    next u hu => exact ih (hstep s u hs hu) h
    all_goals cases h

/-! ### The invariant, move by move -/

/-- R135 items 4 and 5: a frame has at least one bit and fits the accumulator. -/
theorem admitted_frameBits {c : Cfg} (h : c.admitted = true) :
    0 < c.frameBits ∧ c.frameBits ≤ c.accWidth := by
  simp only [Cfg.admitted, Bool.and_eq_true, decide_eq_true_eq] at h
  omega

/-- R135 item 3, lower bound. -/
theorem admitted_preLen_pos {c : Cfg} (h : c.admitted = true) : 0 < c.preLen := by
  have hok : c.preLenOk = true := by
    simp only [Cfg.admitted, Bool.and_eq_true] at h
    tauto
  unfold Cfg.preLenOk at hok
  unfold Cfg.preLen
  cases hp : c.preambleLen with
  | openParam => exact Nat.succ_pos _
  | given n => simpa [hp, Nat.lt_iff_add_one_le] using hok

/-- R135 item 3, upper bound, which the field's type gives: a preamble count never wraps (R21). -/
theorem preLen_lt (c : Cfg) : c.preLen < 2 ^ 16 := by
  unfold Cfg.preLen
  split
  · have := Config.preambleLenLessOne.isLt
    omega
  · exact BitVec.isLt _

theorem OutPort.idle_legal (c : Cfg) : OutPort.idle.Legal c :=
  ⟨by decide, Nat.two_pow_pos _, fun _ => rfl⟩

/-- A record of a frame that fits the accumulator is legal on the port (R54, R55). -/
theorem extract_legal {c : Cfg} (h : c.frameBits ≤ c.accWidth) (f : BitVec c.frameBits) :
    (OutPort.carrying (extract c f)).Legal c := by
  refine ⟨?_, ?_, fun hv => by cases hv⟩
  · show (batteryOf c f).code ≠ 0b11#2
    cases batteryOf c f <;> decide
  · exact f.isLt.trans_le (Nat.pow_le_pow_right two_pos h)

theorem FrameMove.port_legal {s : State} {r : FrameResult} (h : FrameMove s r) (ha : s.cfg.admitted = true) :
    (OutPort.ofRecord r.record).Legal s.cfg := by
  cases h with
  | completed f =>
    obtain ⟨-, hfits⟩ := admitted_frameBits ha
    exact extract_legal hfits f
  | ignored | started | aborted | suspended | preambleCounted | preambleEnded | appended =>
    exact OutPort.idle_legal s.cfg

/-- Appending a bit to a value of `k` bits gives one of `k + 1` bits (R24). -/
theorem appended_lt {s : State} {k : Nat} (h : s.accValue < 2 ^ k) (u : Bool) : s.appended u < 2 ^ (k + 1) := by
  have hshift : s.accValue <<< 1 < 2 ^ (k + 1) := by
    rw [Nat.shiftLeft_eq]
    omega
  have hbit : u.toNat < 2 ^ (k + 1) :=
    (Bool.toNat_lt u).trans_le (Nat.pow_le_pow_right two_pos (Nat.le_add_left 1 k))
  exact (Nat.mod_le _ _).trans_lt (Nat.or_lt_two_pow hshift hbit)

theorem State.Inv.enterReset {s : State} (h : s.Inv) : s.enterReset.Inv where
  admitted := h.admitted
  count_short := (admitted_frameBits h.admitted).1
  value_fits := Nat.one_pos
  empty_outside_payload _ := ⟨rfl, rfl⟩
  preamble_running hf := by cases hf
  preamble_done hf := by cases hf
  init_in_reset _ := s.enterReset_atInit
  port_legal := h.port_legal

theorem State.Inv.startFrame {s : State} (h : s.Inv) : s.startFrame.Inv :=
  { h.enterReset with
    empty_outside_payload := fun _ => ⟨rfl, rfl⟩
    preamble_running := fun _ => admitted_preLen_pos h.admitted
    preamble_done := fun hf => by cases hf
    init_in_reset := fun hf => by cases hf }

theorem State.Inv.setMan {s : State} (h : s.Inv) (hf : s.frame ≠ .reset) (m : ManState) : (s.setMan m).Inv :=
  { h with init_in_reset := fun hr => absurd hr hf }

/-- A preamble bit counted: the counter does not wrap, and stays below `PREAMBLE_LEN`. -/
theorem State.Inv.preambleCounted {s : State} (h : s.Inv) (hf : s.frame = .checkPreamble)
    (hp : s.preCount.toNat + 1 ≠ s.cfg.preLen) :
    State.Inv { s with preCount := BitVec.ofNat 16 (s.preCount.toNat + 1) } :=
  { h with
    preamble_running := fun _ => by
      have hnext : s.preCount.toNat + 1 < s.cfg.preLen := lt_of_le_of_ne (h.preamble_running hf) hp
      exact (Nat.mod_le _ _).trans_lt hnext
    preamble_done := fun hd => by simp [hf] at hd
    init_in_reset := fun hr => by simp [hf] at hr }

/-- The last preamble bit: the counter is `PREAMBLE_LEN`, and the accumulator is still empty. -/
theorem State.Inv.preambleEnded {s : State} (h : s.Inv) (hp : s.preCount.toNat + 1 = s.cfg.preLen) :
    State.Inv { s with preCount := BitVec.ofNat 16 (s.preCount.toNat + 1), frame := .decodingPayload } :=
  { h with
    empty_outside_payload := fun hd => absurd rfl hd
    preamble_running := fun hc => by cases hc
    preamble_done := fun _ => by
      rw [hp]
      exact Nat.mod_eq_of_lt (preLen_lt s.cfg)
    init_in_reset := fun hr => by cases hr }

/-- A payload bit appended short of the frame's end: the count goes up by one and the value fits it. -/
theorem State.Inv.appended {s : State} (h : s.Inv) (hf : s.frame = .decodingPayload)
    (hk : s.accCount.toNat + 1 ≠ s.cfg.frameBits) (u : Bool) :
    State.Inv { s with accValue := s.appended u, accCount := BitVec.ofNat 16 (s.accCount.toNat + 1) } := by
  have hshort := h.count_short
  have hcount : (BitVec.ofNat 16 (s.accCount.toNat + 1)).toNat = s.accCount.toNat + 1 :=
    Nat.mod_eq_of_lt (by have := s.cfg.minBits.isLt; unfold Cfg.frameBits at hshort hk; omega)
  exact { h with
    count_short := by simp only [hcount]; omega
    value_fits := by simpa only [hcount] using appended_lt h.value_fits u
    empty_outside_payload := fun hd => absurd hf hd
    init_in_reset := fun hr => by simp [hf] at hr }

/-- Every move keeps the invariant. -/
theorem FrameMove.inv {s : State} {r : FrameResult} (h : FrameMove s r) (hs : s.Inv) : r.state.Inv := by
  cases h with
  | ignored => exact hs
  | started => exact hs.startFrame
  | aborted | completed => exact hs.enterReset
  | suspended m hf => exact hs.setMan hf m
  | preambleCounted m hf hp => exact (hs.setMan (by simp [hf]) m).preambleCounted hf hp
  | preambleEnded m hf hp => exact (hs.setMan (by simp [hf]) m).preambleEnded hp
  | appended m u hf hk => exact (hs.setMan (by simp [hf]) m).appended hf hk u

/-- The invariant reads neither `live` nor the waiting words, nor the old port. -/
theorem State.Inv.drive {s : State} (h : s.Inv) {r : Option Record} (hr : (OutPort.ofRecord r).Legal s.cfg)
    (live : Bool) : (State.drive { s with live := live } r).Inv :=
  { h with port_legal := hr }

theorem State.Inv.driveLine {s : State} (h : s.Inv) (m : ManState) (bit : Option Bool) (viol : Bool) :
    (State.driveLine { s with ld := m } bit viol).Inv :=
  { h with port_legal := OutPort.idle_legal s.cfg }

theorem State.Inv.withInput {s : State} (h : s.Inv) (ps : List PortWord) : State.Inv { s with input := ps } :=
  { h with }

/-- Every taken instruction keeps the invariant. -/
theorem Taken.inv {i : Instr} {s t : State} (h : Taken s i t) (hs : s.Inv) : t.Inv := by
  cases h with
  | feed level d =>
    have hmove := frameStep_move s level d
    obtain ⟨hcfg, -, -⟩ := hmove.state_frame
    exact (hmove.inv hs).drive (hcfg ▸ hmove.port_legal hs.admitted) true
  | reset | alloc => exact hs.enterReset.drive (OutPort.idle_legal _) true
  | free => exact hs.drive (OutPort.idle_legal _) false
  | symbol y => exact hs.driveLine _ _ _

/-- Settles O16: an idle step changes only the port, and a taken word's instruction keeps the invariant. -/
theorem everyStepKeepsTheInvariant : Obligations.EveryStepKeepsTheInvariant := by
  intro s t hs h
  rcases step_next h with ⟨-, rfl⟩ | ⟨p, rest, i, -, -, hexec⟩
  · exact hs.drive (OutPort.idle_legal _) s.live
  · exact (exec_taken hexec).inv (hs.withInput rest)

/-! ### The other statements about the state -/

/-- No taken instruction writes the configuration or the waiting words (R23). -/
theorem Taken.cfg_input {i : Instr} {s t : State} (h : Taken s i t) : t.cfg = s.cfg ∧ t.input = s.input := by
  cases h with
  | feed level d =>
    obtain ⟨hcfg, hinput, -⟩ := (frameStep_move s level d).state_frame
    exact ⟨hcfg, hinput⟩
  | reset | alloc | free | symbol => exact ⟨rfl, rfl⟩

/-- Settles O11: no taken instruction writes the configuration, and the idle step does not. -/
theorem stepNeverWritesTheConfiguration : Obligations.StepNeverWritesTheConfiguration := by
  intro s t h
  rcases step_next h with ⟨-, rfl⟩ | ⟨p, rest, i, -, -, hexec⟩
  · rfl
  · obtain ⟨hcfg, -⟩ := (exec_taken hexec).cfg_input
    exact hcfg

/-- A command word spells FEED, or one of the other three commands with its reserved bits 0 (R46, R49). -/
theorem decodeCommand_cases {w : BitVec 35} {i : Instr} (h : decodeCommand w = .instr i) :
    i = .feed (levelField w) (durationField w) ∨ i = .reset ∨
    (i = .alloc ∧ opField w = 0b10#2 ∧ reservedField w = 0#33) ∨ i = .free := by
  unfold decodeCommand at h
  split at h
  · injection h with h
    exact .inl h.symm
  · split at h
    · cases h
    · rename_i hres
      split at h
      · injection h with h
        exact .inr (.inl h.symm)
      · split at h
        · rename_i hop
          injection h with h
          exact .inr (.inr (.inl ⟨h.symm, hop, not_not.mp hres⟩))
        · injection h with h
          exact .inr (.inr (.inr h.symm))

/-- The command selector and the reserved bits are the whole word (R46). -/
theorem opField_append_reservedField (w : BitVec 35) : opField w ++ reservedField w = w := by
  apply BitVec.eq_of_toNat_eq
  have hw := w.isLt
  simp only [opField, reservedField, BitVec.toNat_append, BitVec.extractLsb'_toNat, Nat.shiftRight_eq_div_pow]
  rw [← Nat.shiftLeft_add_eq_or_of_lt (Nat.mod_lt _ (Nat.two_pow_pos 33)), Nat.shiftLeft_eq]
  omega

/-- Settles O12: of the decoded commands only ALLOC has an outcome when none is allocated, and its word is fixed by its
two fields. -/
theorem onlyAllocHasAStepWithoutAnInstance : Obligations.OnlyAllocHasAStepWithoutAnInstance := by
  intro s t w rest hin hl h
  rcases step_next h with ⟨hidle, -⟩ | ⟨p, rest', i, hword, hdec, hexec⟩
  · simp [hidle] at hin
  obtain ⟨rfl, rfl⟩ : PortWord.cmd w = p ∧ rest = rest' := by simpa [hin] using hword
  have hdead : ({ s with input := rest } : State).live ≠ true := by simp [hl]
  rcases decodeCommand_cases hdec with rfl | rfl | ⟨rfl, hop, hres⟩ | rfl
  · exact absurd (execFeed_next hexec).1 hdead
  · exact absurd (execReset_next hexec).1 hdead
  · rw [← opField_append_reservedField w, hop, hres]
    decide
  · exact absurd (execFree_next hexec).1 hdead

theorem reset_atInit : State.reset.AtInit := ⟨rfl, rfl, rfl, rfl, rfl, rfl⟩

/-- R118: a FEED that ends an attempt is a frame step with a cause, and so leaves the state at `INIT`. -/
theorem feed_atInit_of_endCause {s t : State} {level : Bool} {d : BitVec 32} {c : Cause}
    (h : execFeed level d s = .next t) (hc : endCause (.feed level d) s = some c) : t.live = true ∧ t.AtInit := by
  obtain ⟨hl, rfl⟩ := execFeed_next h
  have hcause : (s.frameStep level d).cause = some c := by simpa [endCause, hl] using hc
  exact ⟨rfl, (frameStep_move s level d).atInit_of_cause hcause⟩

/-- Settles O14, one clause for each column of R28's table, and the refusals of R133. -/
theorem resetTableHolds : Obligations.ResetTableHolds := by
  refine ⟨⟨rfl, reset_atInit⟩, fun s => ⟨_, rfl, rfl, s.enterReset_atInit⟩, fun s hl => ?_,
    fun s t l d c => feed_atInit_of_endCause, fun s hl => ?_, fun s l d hl => ?_⟩
  · exact ⟨_, if_pos hl, rfl, s.enterReset_atInit⟩
  · exact ⟨_, if_pos hl, rfl, rfl, rfl, rfl, rfl, rfl, rfl⟩
  · have hdead : ¬ s.live = true := by simp [hl]
    exact ⟨if_neg hdead, if_neg hdead, if_neg hdead⟩

/-- Settles O17: the invariant holds after any number of steps, and R25 is two of its fields. -/
theorem accumulatorIsShortAndEmptyOutsidePayload : Obligations.AccumulatorIsShortAndEmptyOutsidePayload := by
  intro s t k hs h
  have ht : t.Inv := stateAfter_keeps everyStepKeepsTheInvariant hs h
  refine ⟨ht.count_short, fun hf => ht.empty_outside_payload ?_⟩
  rcases hf with hf | hf <;> simp [hf]

/-- `SAMPLE` is admitted (R135), whatever its two open parameters are. -/
theorem sample_admitted : Cfg.sample.admitted = true := by decide

/-- Settles O13: the power-on state and `SAMPLE` are read off their definitions; an empty `BATTERY` table reads
Unknown. -/
theorem powerOnStateIsUnallocatedInit : Obligations.PowerOnStateIsUnallocatedInit := by
  refine ⟨rfl, reset_atInit, rfl, sample_admitted, rfl, rfl, ?_⟩
  exact ⟨rfl, rfl, rfl, rfl, rfl, rfl, rfl, rfl, rfl, rfl, rfl, rfl, rfl, rfl, rfl, rfl, rfl, fun _ => rfl⟩

/-- Settles O15: at power-on the accumulator is empty, the frame state is Reset, and the port is idle. -/
theorem powerOnMeetsTheInvariant : Obligations.PowerOnMeetsTheInvariant where
  admitted := sample_admitted
  count_short := by decide
  value_fits := by decide
  empty_outside_payload _ := ⟨rfl, rfl⟩
  preamble_running hf := by cases hf
  preamble_done hf := by cases hf
  init_in_reset _ := reset_atInit
  port_legal := OutPort.idle_legal _

theorem symbolInstr_ne_command (y : Symbol) :
    ¬ ((∃ l d, symbolInstr y = .feed l d) ∨ symbolInstr y = .reset ∨ symbolInstr y = .alloc ∨
      symbolInstr y = .free) := by
  cases y <;> simp [symbolInstr]

/-- Settles O56: a command's outcome goes through `State.drive`, a symbol's through `State.driveLine`. -/
theorem commandsAndSymbolsKeepApart : Obligations.CommandsAndSymbolsKeepApart := by
  intro i s t h
  have htaken := exec_taken h
  obtain ⟨hcfg, hinput⟩ := htaken.cfg_input
  refine ⟨hcfg, hinput, fun hcmd => ?_, fun hsym => ?_⟩
  · cases htaken with
    | feed level d =>
      obtain ⟨-, -, hld⟩ := (frameStep_move s level d).state_frame
      exact ⟨hld, rfl, rfl⟩
    | reset | alloc | free => exact ⟨rfl, rfl, rfl⟩
    | symbol y => exact absurd hcmd (symbolInstr_ne_command y)
  · cases htaken with
    | symbol => rfl
    | feed | reset | alloc | free => simp at hsym

end Sys2Proof.Machine
end

section
/-!
The commands other than FEED, each by one equation, and that repeating one changes nothing more (20_memory.md R36).
-/

namespace Sys2Proof.Machine

/-- RESET on a live instance goes to the initial state (R110). -/
theorem exec_reset_of_live {s : State} (hl : s.live = true) : exec .reset s = .next (s.initial true) := if_pos hl

/-- ALLOC goes to the initial state, from a live instance or none (R111). -/
theorem exec_alloc (s : State) : exec .alloc s = .next (s.initial true) := rfl

/-- FREE is refused where no instance is allocated (R112). -/
theorem exec_free_of_not_live {s : State} (hl : s.live = false) : exec .free s = .refused .notAllocated :=
  if_neg (by simp [hl])

@[simp] theorem State.initial_live (s : State) (b : Bool) : (s.initial b).live = b := rfl

/-- Setting the initial state twice is setting it once: it depends on nothing that it writes. -/
@[simp] theorem State.initial_initial (s : State) (b c : Bool) : (s.initial b).initial c = s.initial c := rfl

/-- Settles O55: RESET and ALLOC arrive at the initial state, which they map to itself; FREE leaves no instance. -/
theorem commandsOtherThanFeedAreIdempotent : Obligations.CommandsOtherThanFeedAreIdempotent := by
  intro s t
  refine ⟨fun h => ?_, fun h => ?_, fun h => ?_⟩
  · obtain ⟨hl, -⟩ := execReset_next h
    rw [exec_reset_of_live hl] at h
    injection h with h
    subst h
    rw [exec_reset_of_live (s.initial_live true), State.initial_initial]
  · rw [exec_alloc] at h
    injection h with h
    subst h
    rw [exec_alloc, State.initial_initial]
  · obtain ⟨-, rfl⟩ := execFree_next h
    exact exec_free_of_not_live rfl

end Sys2Proof.Machine
end

section
/-!
Words as numbers: the fields of a command word by division and remainder, the word of three fields as their sum, and
from both the two directions between words and instructions (30_encoding.md R46 to R52).
-/

namespace Sys2Proof.Machine

@[simp] theorem toNat_opField (w : BitVec 35) : (opField w).toNat = w.toNat / 2 ^ 33 := by
  have hw := w.isLt
  simp only [opField, BitVec.extractLsb'_toNat, Nat.shiftRight_eq_div_pow]
  omega

@[simp] theorem toNat_levelField (w : BitVec 35) : (levelField w).toNat = w.toNat / 2 ^ 32 % 2 := by
  simp only [levelField, BitVec.getLsbD, Nat.toNat_testBit]

@[simp] theorem toNat_durationField (w : BitVec 35) : (durationField w).toNat = w.toNat % 2 ^ 32 := by
  simp [durationField, BitVec.extractLsb'_toNat]

@[simp] theorem toNat_reservedField (w : BitVec 35) : (reservedField w).toNat = w.toNat % 2 ^ 33 := by
  simp [reservedField, BitVec.extractLsb'_toNat]

/-- The three fields of a command word stand side by side, so its number is their weighted sum (R46, R48). -/
@[simp] theorem toNat_commandWord (op : BitVec 2) (l : Bool) (d : BitVec 32) :
    (commandWord op l d).toNat = op.toNat * 2 ^ 33 + l.toNat * 2 ^ 32 + d.toNat := by
  have hlow : (BitVec.ofBool l ++ d).toNat = l.toNat * 2 ^ 32 + d.toNat := by
    rw [BitVec.toNat_append, ← Nat.shiftLeft_add_eq_or_of_lt d.isLt, Nat.shiftLeft_eq, BitVec.toNat_ofBool]
  rw [commandWord, BitVec.toNat_append, ← Nat.shiftLeft_add_eq_or_of_lt (BitVec.isLt _), Nat.shiftLeft_eq, hlow,
    Nat.add_assoc]

theorem opField_eq_zero_iff (w : BitVec 35) : opField w = 0b00#2 ↔ w.toNat < 2 ^ 33 := by
  rw [← BitVec.toNat_inj, toNat_opField, BitVec.toNat_ofNat]
  omega

/-- Cutting a command word into its three fields and joining them again changes nothing (R46). -/
theorem commandWord_fields (w : BitVec 35) : commandWord (opField w) (levelField w) (durationField w) = w := by
  apply BitVec.eq_of_toNat_eq
  simp only [toNat_commandWord, toNat_opField, toNat_levelField, toNat_durationField]
  omega

/-- With the reserved bits 0 the selector is the whole word (R49). -/
theorem commandWord_of_reserved_zero {w : BitVec 35} (h : reservedField w = 0#33) :
    commandWord (opField w) false 0#32 = w := by
  have hres : w.toNat % 2 ^ 33 = 0 := by simpa using congrArg BitVec.toNat h
  apply BitVec.eq_of_toNat_eq
  simp only [toNat_commandWord, toNat_opField, Bool.toNat_false, BitVec.toNat_ofNat]
  omega

/-! ### The decoder's answers -/

/-- Selector 00: FEED, with the word's fields (R47, R48). -/
theorem decodeCommand_of_op_zero {w : BitVec 35} (h : opField w = 0b00#2) :
    decodeCommand w = .instr (.feed (levelField w) (durationField w)) := if_pos h

/-- A reserved bit set under another selector: refused by name (R49). -/
theorem decodeCommand_of_reserved_ne {w : BitVec 35} (hop : opField w ≠ 0b00#2) (hres : reservedField w ≠ 0#33) :
    decodeCommand w = .reject .reservedOperandBits := by
  simp only [decodeCommand, if_neg hop, if_pos hres]

/-- The word of FEED reads back as FEED with both operands (R48). -/
theorem decodeCommand_feedWord (l : Bool) (d : BitVec 32) :
    decodeCommand (commandWord 0b00#2 l d) = .instr (.feed l d) := by
  have hl := l.toNat_lt
  have hd := d.isLt
  have hop : opField (commandWord 0b00#2 l d) = 0b00#2 := by
    rw [opField_eq_zero_iff, toNat_commandWord, BitVec.toNat_ofNat]
    omega
  have hlevel : levelField (commandWord 0b00#2 l d) = l := by
    have hnat : (levelField (commandWord 0b00#2 l d)).toNat = l.toNat := by
      rw [toNat_levelField, toNat_commandWord, BitVec.toNat_ofNat]
      omega
    rw [← Bool.ofNat_toNat (levelField _), hnat, Bool.ofNat_toNat]
  have hduration : durationField (commandWord 0b00#2 l d) = d := by
    apply BitVec.eq_of_toNat_eq
    rw [toNat_durationField, toNat_commandWord, BitVec.toNat_ofNat]
    omega
  rw [decodeCommand_of_op_zero hop, hlevel, hduration]

/-- Each of the other selectors, with its reserved bits 0, spells the command whose word it is (R47, R49). -/
theorem decodeCommand_selectorWord {op : BitVec 2} (hop : op ≠ 0b00#2) :
    ∃ i, decodeCommand (commandWord op false 0#32) = .instr i ∧ encode i = .cmd (commandWord op false 0#32) := by
  have hcases : op = 0b01#2 ∨ op = 0b10#2 ∨ op = 0b11#2 := by
    revert op
    decide
  rcases hcases with rfl | rfl | rfl
  · exact ⟨.reset, by decide, rfl⟩
  · exact ⟨.alloc, by decide, rfl⟩
  · exact ⟨.free, by decide, rfl⟩

/-- A command word that spells an instruction is its word: FEED keeps every field, the others have no free bit. -/
theorem encode_of_decodeCommand {w : BitVec 35} {i : Instr} (h : decodeCommand w = .instr i) : encode i = .cmd w := by
  by_cases hfeed : opField w = 0b00#2
  · rw [decodeCommand_of_op_zero hfeed] at h
    injection h with h
    rw [← h, encode, ← hfeed, commandWord_fields]
  · by_cases hres : reservedField w = 0#33
    · obtain ⟨j, hj, hword⟩ := decodeCommand_selectorWord hfeed
      rw [commandWord_of_reserved_zero hres] at hj hword
      rw [h] at hj
      injection hj with hj
      rw [hj, hword]
    · rw [decodeCommand_of_reserved_ne hfeed hres] at h
      cases h

/-- A symbol code is the code of a symbol, which it spells, or is reserved (R52). -/
theorem decodeSymbol_cases (c : BitVec 3) :
    (∃ y : Symbol, c = y.code ∧ decodeSymbol c = .instr (symbolInstr y)) ∨
    decodeSymbol c = .reject .reservedSymbol := by
  unfold decodeSymbol
  split_ifs with h0 h1 h2 h3 h4
  · exact .inl ⟨.shortLow, h0, rfl⟩
  · exact .inl ⟨.shortHigh, h1, rfl⟩
  · exact .inl ⟨.longLow, h2, rfl⟩
  · exact .inl ⟨.longHigh, h3, rfl⟩
  · exact .inl ⟨.reset, h4, rfl⟩
  · exact .inr rfl

theorem encode_symbolInstr (y : Symbol) : encode (symbolInstr y) = .sym y.code := by
  cases y <;> rfl

/-- A symbol code that spells an instruction is its code (R52). -/
theorem encode_of_decodeSymbol {c : BitVec 3} {i : Instr} (h : decodeSymbol c = .instr i) : encode i = .sym c := by
  rcases decodeSymbol_cases c with ⟨y, hcode, hy⟩ | hreject
  · rw [hy] at h
    injection h with h
    rw [← h, encode_symbolInstr, hcode]
  · rw [hreject] at h
    cases h

/-- Settles O1: FEED by its three fields; every other instruction has one fixed word. -/
theorem decodeOfEncodeIsTheInstruction : Obligations.DecodeOfEncodeIsTheInstruction := by
  intro i _
  cases i with
  | feed l d => exact decodeCommand_feedWord l d
  | reset | alloc | free => decide
  | shortLow | shortHigh | longLow | longHigh | resetSymbol => decide

/-- Settles O2, for each of the two inputs. -/
theorem encodeOfDecodeIsTheWord : Obligations.EncodeOfDecodeIsTheWord := by
  intro p i h
  cases p with
  | cmd w => exact encode_of_decodeCommand h
  | sym c => exact encode_of_decodeSymbol h

/-- A word spells a well-formed instruction exactly if it is that instruction's word. -/
theorem decode_eq_instr_iff (p : PortWord) {i : Instr} (hi : i.wellFormed = true) :
    decode p = .instr i ↔ encode i = p :=
  ⟨encodeOfDecodeIsTheWord p i, fun h => h ▸ decodeOfEncodeIsTheInstruction i hi⟩

/-- The command words that spell an instruction with the fixed word `v` are `v` alone. -/
theorem decode_cmd_iff_of_encode {i : Instr} {v : BitVec 35} (hi : i.wellFormed = true) (hv : encode i = .cmd v)
    (w : BitVec 35) : decode (.cmd w) = .instr i ↔ w = v := by
  rw [decode_eq_instr_iff _ hi, hv, PortWord.cmd.injEq, eq_comm]

/-- A word that spells FEED is the word of its operands (R48). -/
theorem toNat_of_decode_feed {w : BitVec 35} {l : Bool} {d : BitVec 32} (h : decode (.cmd w) = .instr (.feed l d)) :
    w.toNat = l.toNat * 2 ^ 32 + d.toNat := by
  have hword : commandWord 0b00#2 l d = w := PortWord.cmd.inj (encodeOfDecodeIsTheWord _ _ h)
  rw [← hword, toNat_commandWord, BitVec.toNat_ofNat]
  omega

/-- Settles O3: the refusal by the two fields, the fixed words by inverting the decoder, FEED's words by their
selector. -/
theorem reservedOperandBitsAreRefused : Obligations.ReservedOperandBitsAreRefused := by
  refine ⟨fun w hop hres => ?_, decode_cmd_iff_of_encode rfl (by decide), decode_cmd_iff_of_encode rfl (by decide),
    decode_cmd_iff_of_encode rfl (by decide), fun w => ⟨fun ⟨l, d, h⟩ => ?_, fun h => ?_⟩⟩
  · refine decodeCommand_of_reserved_ne (fun h => hop ?_) (fun h => hres ?_)
    · simpa using congrArg BitVec.toNat h
    · simpa using congrArg BitVec.toNat h
  · have hw := toNat_of_decode_feed h
    have hl := l.toNat_lt
    have hd := d.isLt
    omega
  · exact ⟨_, _, decodeCommand_of_op_zero ((opField_eq_zero_iff w).mpr h)⟩

/-- Settles O4: the word's number is the level times `2^32` plus the duration, and the duration is below `2^32`. -/
theorem feedOperandsAreTheWordsFields : Obligations.FeedOperandsAreTheWordsFields := by
  intro w l d h
  have hw := toNat_of_decode_feed h
  have hd := d.isLt
  omega

/-- Settles O6, word by word. -/
theorem writtenOutWordsDecode : Obligations.WrittenOutWordsDecode :=
  ⟨by decide, by decide, by decide, by decide, by decide, by decide, by decide, by decide, by decide, by decide⟩

/-- The fetch of a symbol word asks nothing of the configuration (log entry 6). -/
theorem fetch_of_symbol {s : State} {c : BitVec 3} {rest : List PortWord} (hin : s.input = .sym c :: rest) :
    s.fetch = State.decoded { s with input := rest } (.sym c) := by
  simp only [State.fetch, hin]

/-- Settles O8: the fetch takes the symbol word, and the word decodes. -/
theorem stepRunsTheDecodedSymbol : Obligations.StepRunsTheDecodedSymbol := by
  intro s c rest i hin hdec
  have hrun : s.fetch = .run i { s with input := rest } := by
    rw [fetch_of_symbol hin, State.decoded, hdec]
  rw [step, hrun]

end Sys2Proof.Machine
end

section
/-!
The extractor's fields as numbers of the frame value (R101), and what the output port shows after a step (30_encoding.md
R54, R55).
-/

namespace Sys2Proof.Machine

/-- The field of a number at a shift, `width` bits wide, by division and remainder. -/
theorem fieldOf_eq (f shift width : Nat) : fieldOf f shift width = f / 2 ^ shift % 2 ^ width := by
  rw [fieldOf, Nat.and_two_pow_sub_one_eq_mod, Nat.shiftRight_eq_div_pow]

theorem fieldOf_lt {f shift width bound : Nat} (h : width ≤ bound) : fieldOf f shift width < 2 ^ bound := by
  rw [fieldOf_eq]
  exact (Nat.mod_lt _ (Nat.two_pow_pos _)).trans_le (Nat.pow_le_pow_right two_pos h)

/-- R135 items 6 and 7: the record's fields fit the port. -/
theorem admitted_fields {c : Cfg} (h : c.admitted = true) :
    c.idWidth ≤ 24 ∧ c.pWidth ≤ 16 ∧ c.tempBias ≤ 32768 ∧ 2 ^ c.tWidth ≤ 32768 + c.tempBias := by
  simp only [Cfg.admitted, Bool.and_eq_true, decide_eq_true_eq] at h
  obtain ⟨⟨⟨⟨-, hid, -⟩, hp, -⟩, ⟨-, hbias⟩, ht⟩, -⟩ := h
  exact ⟨hid, hp, hbias, ht⟩

/-- The sensor id is its field of the frame value, with nothing cut off (R101). -/
theorem extract_sensorId_toNat {c : Cfg} (h : c.admitted = true) (f : BitVec c.frameBits) :
    (extract c f).sensorId.toNat = fieldOf f.toNat c.idShift c.idWidth := by
  obtain ⟨hid, -, -, -⟩ := admitted_fields h
  exact (BitVec.toNat_ofNat _ _).trans (Nat.mod_eq_of_lt (fieldOf_lt (hid.trans (by decide))))

/-- The sensor id leaves the port's upper byte 0 (R54). -/
theorem extract_sensorId_lt {c : Cfg} (h : c.admitted = true) (f : BitVec c.frameBits) :
    (extract c f).sensorId.toNat < 2 ^ 24 := by
  obtain ⟨hid, -, -, -⟩ := admitted_fields h
  exact (extract_sensorId_toNat h f).trans_lt (fieldOf_lt hid)

/-- The pressure is its field of the frame value, with nothing cut off (R101, R103). -/
theorem extract_pressure_toNat {c : Cfg} (h : c.admitted = true) (f : BitVec c.frameBits) :
    (extract c f).pressure.toNat = fieldOf f.toNat c.pShift c.pWidth := by
  obtain ⟨-, hp, -, -⟩ := admitted_fields h
  exact (BitVec.toNat_ofNat _ _).trans (Nat.mod_eq_of_lt (fieldOf_lt hp))

/-- The biased temperature fits 16 signed bits, so the port's number is the exact one (R101). -/
theorem extract_temperature_toInt {c : Cfg} (h : c.admitted = true) (f : BitVec c.frameBits) :
    (extract c f).temperature.toInt = temperatureOf c f := by
  obtain ⟨-, -, hbias, ht⟩ := admitted_fields h
  have hfield : fieldOf f.toNat c.tShift c.tWidth < 2 ^ c.tWidth := fieldOf_lt le_rfl
  rw [extract, BitVec.toInt_ofInt]
  apply Int.bmod_eq_of_le <;> unfold temperatureOf <;> omega

/-- What a move shows: no record, or that of a frame value which `CHECK` accepts (R86). -/
theorem FrameMove.record_validated {s : State} {r : FrameResult} (h : FrameMove s r) :
    r.record = none ∨ ∃ f, validate s.cfg f = true ∧ r.record = some (extract s.cfg f) := by
  cases h with
  | completed f hf hv => exact .inr ⟨f, hv, rfl⟩
  | ignored | started | aborted | suspended | preambleCounted | preambleEnded | appended => exact .inl rfl

/-- The port after a taken instruction: only FEED can show a record (R113, R114). -/
theorem Taken.port {i : Instr} {s t : State} (h : Taken s i t) :
    t.out = OutPort.idle ∨ ∃ f, validate s.cfg f = true ∧ t.out = OutPort.carrying (extract s.cfg f) := by
  cases h with
  | feed level d =>
    rcases (frameStep_move s level d).record_validated with hr | ⟨f, hv, hr⟩ <;> rw [hr]
    · exact .inl rfl
    · exact .inr ⟨f, hv, rfl⟩
  | reset | alloc | free | symbol => exact .inl rfl

/-- Settles O49: the port copies the record's fields, whose numbers the lemmas above give, and every step leaves there
what its instruction drove. -/
theorem outputPortShowsTheRecordsFields : Obligations.OutputPortShowsTheRecordsFields := by
  refine ⟨fun c f hc => ?_, fun r => rfl, ⟨rfl, rfl, rfl, rfl, rfl, rfl, rfl, rfl⟩, ⟨rfl, rfl, rfl⟩, fun s t h => ?_⟩
  · obtain ⟨-, hfits⟩ := admitted_frameBits hc
    refine ⟨rfl, (extract_sensorId_toNat hc f).trans (fieldOf_eq _ _ _), extract_sensorId_lt hc f,
      (extract_pressure_toNat hc f).trans (fieldOf_eq _ _ _), ?_, congrArg Battery.code, congrArg Battery.code,
      congrArg Battery.code, rfl, f.isLt.trans_le (Nat.pow_le_pow_right two_pos hfits), rfl⟩
    exact (extract_temperature_toInt hc f).trans (by rw [temperatureOf, fieldOf_eq])
  · rcases step_next h with ⟨-, rfl⟩ | ⟨p, rest, i, -, -, hexec⟩
    · exact .inl rfl
    · exact (exec_taken hexec).port

end Sys2Proof.Machine
end

section
/-!
The pseudo-commands (30_encoding.md R58): the nominal event of a half-symbol and what the classifier makes of it, the
expansion of a bit string, and the text of `BITS`.
-/

namespace Sys2Proof.Machine

/-! ### Nominal events -/

/-- A half-symbol and the event of its level and nominal duration (R78). -/
def Nominal (c : Cfg) (y : Symbol) (e : Bool × BitVec 32) : Prop :=
  (y = .shortLow ∧ e = (false, c.shortUs)) ∨ (y = .shortHigh ∧ e = (true, c.shortUs)) ∨
  (y = .longLow ∧ e = (false, c.longUs)) ∨ (y = .longHigh ∧ e = (true, c.longUs))

/-- Every symbol but Reset has its nominal event. -/
theorem nominalEvent_of_ne_reset (c : Cfg) {y : Symbol} (hy : y ≠ .reset) :
    ∃ e, nominalEvent c y = some e ∧ Nominal c y e := by
  cases y with
  | shortLow => exact ⟨_, rfl, .inl ⟨rfl, rfl⟩⟩
  | shortHigh => exact ⟨_, rfl, .inr (.inl ⟨rfl, rfl⟩)⟩
  | longLow => exact ⟨_, rfl, .inr (.inr (.inl ⟨rfl, rfl⟩))⟩
  | longHigh => exact ⟨_, rfl, .inr (.inr (.inr ⟨rfl, rfl⟩))⟩
  | reset => exact absurd rfl hy

theorem matchWindow_self {n tol : Nat} (h : 1 ≤ tol) : matchWindow n n tol = true := by
  simpa [matchWindow, absdiff] using Nat.lt_of_succ_le h

/-- At `tol` or more above the reference the window test fails: it is strict (R59). -/
theorem matchWindow_of_add_le {d ref tol : Nat} (h : ref + tol ≤ d) : matchWindow d ref tol = false := by
  have hle : ref ≤ d := by omega
  rw [matchWindow, absdiff, if_pos hle, decide_eq_false_iff_not]
  omega

/-- R135 items 1 and 2: no window is empty, and the short one ends where the long one begins or before. -/
theorem admitted_windows {c : Cfg} (h : c.admitted = true) :
    1 ≤ c.toleranceUs.toNat ∧ c.shortUs.toNat + 2 * c.toleranceUs.toNat ≤ c.longUs.toNat + 1 := by
  simp only [Cfg.admitted, Bool.and_eq_true, decide_eq_true_eq] at h
  omega

theorem classify_shortUs {c : Cfg} (h : c.admitted = true) (l : Bool) : classify c l c.shortUs = shortSymbol l :=
  if_pos (matchWindow_self (admitted_windows h).1)

/-- The nominal long duration is outside the short window (R65). -/
theorem classify_longUs {c : Cfg} (h : c.admitted = true) (l : Bool) : classify c l c.longUs = longSymbol l := by
  obtain ⟨htol, hgap⟩ := admitted_windows h
  have hshort : matchWindow (durationValue c.longUs) c.shortUs.toNat c.toleranceUs.toNat = false :=
    matchWindow_of_add_le (by unfold durationValue; omega)
  have hlong : matchWindow (durationValue c.longUs) c.longUs.toNat c.toleranceUs.toNat = true := matchWindow_self htol
  simp only [classify, hshort, hlong, Bool.false_eq_true, if_false, if_true]

/-- The classifier gives a half-symbol back from its nominal event. -/
theorem Nominal.classify_eq {c : Cfg} {y : Symbol} {e : Bool × BitVec 32} (h : Nominal c y e)
    (hc : c.admitted = true) : classify c e.1 e.2 = y := by
  rcases h with ⟨rfl, rfl⟩ | ⟨rfl, rfl⟩ | ⟨rfl, rfl⟩ | ⟨rfl, rfl⟩
  · exact classify_shortUs hc false
  · exact classify_shortUs hc true
  · exact classify_longUs hc false
  · exact classify_longUs hc true

/-- The nominal events of a symbol list (R78). -/
def nominalEvents (c : Cfg) (ys : List Symbol) : List (Bool × BitVec 32) := ys.filterMap (nominalEvent c)

/-- Without a Reset symbol in the list there is one nominal event for each symbol, in order. -/
theorem forall₂_nominalEvents (c : Cfg) {ys : List Symbol} (h : ∀ y ∈ ys, y ≠ .reset) :
    List.Forall₂ (Nominal c) ys (nominalEvents c ys) := by
  induction ys with
  | nil => exact .nil
  | cons y ys ih =>
    obtain ⟨hy, hys⟩ := List.forall_mem_cons.mp h
    obtain ⟨e, he, hn⟩ := nominalEvent_of_ne_reset c hy
    rw [nominalEvents, List.filterMap_cons_some he]
    exact .cons hn (ih hys)

theorem map_classify_of_nominal {c : Cfg} (hc : c.admitted = true) {ys : List Symbol} {evs : List (Bool × BitVec 32)}
    (h : List.Forall₂ (Nominal c) ys evs) : evs.map (fun e => classify c e.1 e.2) = ys := by
  induction h with
  | nil => rfl
  | cons hn _ ih => rw [List.map_cons, hn.classify_eq hc, ih]

/-! ### The expansion of a line -/

theorem runSymbol_ne_reset (r : Bool × Nat) : runSymbol r ≠ .reset := by
  have hhalf : ∀ l : Bool, shortSymbol l ≠ .reset ∧ longSymbol l ≠ .reset := by decide
  unfold runSymbol
  split
  · exact (hhalf r.1).1
  · exact (hhalf r.1).2

/-- The Manchester encoding has half-symbols only (R78). -/
theorem manchesterEncode_ne_reset (l0 : Bool) (bits : List Bool) : ∀ y ∈ manchesterEncode l0 bits, y ≠ .reset := by
  intro y hy
  obtain ⟨r, -, rfl⟩ := List.mem_map.mp hy
  exact runSymbol_ne_reset r

/-- `BITS` expands to the FEEDs of the nominal events of its encoding (R58). -/
theorem expand_bits (c : Cfg) {bits : List Bool} (h : bits ≠ []) :
    (AsmLine.bits bits).expand c =
      some ((nominalEvents c (manchesterEncode c.manInitLevel bits)).map fun e => Instr.feed e.1 e.2) := by
  cases bits with
  | nil => exact absurd rfl h
  | cons b bs => rw [AsmLine.expand, nominalEvents, List.map_filterMap]

/-- `START` expands to one high FEED where its number is a duration (R57, R58). -/
theorem expand_start {c : Cfg} (h : 2 * c.longUs.toNat < 2 ^ 32) :
    AsmLine.start.expand c = some [.feed true (BitVec.ofNat 32 (2 * c.longUs.toNat))] := by
  rw [AsmLine.expand, feedNumber, if_pos h, Option.map_some]

/-- A high pulse of exactly `2 * LONG_US` is a start condition (R63), since no window is empty. -/
theorem isStartPulse_of_toNat_eq {c : Cfg} (hc : c.admitted = true) {d : BitVec 32}
    (hd : d.toNat = 2 * c.longUs.toNat) : c.IsStartPulse true d := by
  obtain ⟨htol, -⟩ := admitted_windows hc
  refine ⟨rfl, ?_⟩
  simp only [InWindow, hd, sub_self, abs_zero]
  omega

/-! ### The text of `BITS` -/

/-- The digit of a bit in the text of `BITS` (R58). -/
def bitChar (b : Bool) : Char := if b then '1' else '0'

/-- The operands of `BITS` as text: a blank and a digit for each bit. -/
def bitsText (bits : List Bool) : List Char := bits.flatMap fun b => [' ', bitChar b]

/-- The digits begin no comment, so the line is read whole. -/
theorem withoutComment_bits (bits : List Bool) :
    withoutComment ("BITS".toList ++ bitsText bits) = "BITS".toList ++ bitsText bits := by
  refine List.takeWhile_eq_self_iff.mpr fun ch hch => ?_
  rcases List.mem_append.mp hch with hch | hch
  · have hword : ∀ ch ∈ "BITS".toList, (ch != ';') = true := by simp
    exact hword ch hch
  · have hdigits : ∀ b, ∀ ch ∈ [' ', bitChar b], (ch != ';') = true := by
      intro b
      cases b <;> simp [bitChar]
    obtain ⟨b, -, hb⟩ := List.mem_flatMap.mp hch
    exact hdigits b ch hb

/-- After a word begun, each blank ends a word and each digit is one. -/
theorem wordsFrom_bitsText (bits : List Bool) (ch : Char) (cur : List Char) :
    wordsFrom (ch :: cur) (bitsText bits) = (ch :: cur).reverse :: bits.map fun b => [bitChar b] := by
  induction bits generalizing ch cur with
  | nil => rfl
  | cons b bs ih =>
    have hdigit : wordsFrom [] (bitChar b :: bitsText bs) = wordsFrom [bitChar b] (bitsText bs) := by
      cases b <;> rfl
    calc wordsFrom (ch :: cur) (bitsText (b :: bs))
        = (ch :: cur).reverse :: wordsFrom [] (bitChar b :: bitsText bs) := rfl
      _ = (ch :: cur).reverse :: (b :: bs).map fun b => [bitChar b] := by
          rw [hdigit, ih, List.reverse_singleton, List.map_cons]

theorem bitsOf_bitChars (bits : List Bool) : bitsOf (bits.map fun b => [bitChar b]) = some bits := by
  induction bits with
  | nil => rfl
  | cons b bs ih =>
    have hbit : bitOf [bitChar b] = some b := by cases b <;> rfl
    simp only [List.map_cons, bitsOf, hbit, ih]

theorem lineOfWords_bits (ws : List (List Char)) : lineOfWords ("BITS".toList :: ws) = (bitsOf ws).map .bits := by
  rcases ws with _ | ⟨w, _ | ⟨w', _ | ⟨w'', ws⟩⟩⟩ <;> rfl

/-- The line of `BITS` reads as its bits. -/
theorem parseLine_bits (bits : List Bool) : parseLine ("BITS".toList ++ bitsText bits) = some (.bits bits) := by
  have hwords : wordsFrom [] ("BITS".toList ++ bitsText bits) = "BITS".toList :: bits.map fun b => [bitChar b] :=
    wordsFrom_bitsText bits 'S' ['T', 'I', 'B']
  rw [parseLine, withoutComment_bits, hwords, lineOfWords_bits, bitsOf_bitChars, Option.map_some]

/-- Settles O59, row by row of R58's table. -/
theorem pseudoCommandsSpellTheirSymbols : Obligations.PseudoCommandsSpellTheirSymbols := by
  refine ⟨fun c => ⟨fun hfits => ?_, rfl, rfl, rfl, rfl, fun bits hbits => ?_⟩, ⟨rfl, rfl, rfl⟩,
    by decide, by decide, by decide, by decide, by decide, fun bits _ => parseLine_bits bits⟩
  · have hd : (BitVec.ofNat 32 (2 * c.longUs.toNat)).toNat = 2 * c.longUs.toNat := Nat.mod_eq_of_lt hfits
    exact ⟨_, expand_start hfits, hd, fun hc => isStartPulse_of_toNat_eq hc hd⟩
  · have hnominal := forall₂_nominalEvents c (manchesterEncode_ne_reset c.manInitLevel bits)
    exact ⟨_, expand_bits c hbits, hnominal, fun hc => map_classify_of_nominal hc hnominal⟩

end Sys2Proof.Machine
end

section
/-!
The pulse classifier (40_pulse_classifier.md R59 to R65): the windows in exact integers, the symbol of each window, and
the four kinds of event by what the classifier and the line decoder answer.
-/

namespace Sys2Proof.Machine

/-! ### The windows -/

/-- The window test decides the window of R59: the model's `absdiff` is the absolute value of the difference. -/
theorem matchWindow_iff_inWindow (d ref tol : Nat) : matchWindow d ref tol = true ↔ InWindow d ref tol := by
  rw [matchWindow, decide_eq_true_iff, InWindow, abs_lt]
  unfold absdiff
  split <;> omega

/-- Settles O22. -/
theorem windowTestIsStrictAndExact : Obligations.WindowTestIsStrictAndExact := matchWindow_iff_inWindow

/-- R64: a window is a range, cut off at 0 below; for `tol = 0` both are empty. -/
theorem inWindow_iff_range (d ref tol : Nat) :
    InWindow d ref tol ↔ ref + 1 - tol ≤ d ∧ d + 1 ≤ ref + tol := by
  rw [InWindow, abs_lt]
  omega

theorem isStart_iff (c : Cfg) (l : Bool) (d : BitVec 32) : isStart c l d = true ↔ c.IsStartPulse l d := by
  rw [isStart, Bool.and_eq_true, matchWindow_iff_inWindow]
  rfl

/-- Settles O26. -/
theorem startConditionIsAHighDoubleLongPulse : Obligations.StartConditionIsAHighDoubleLongPulse := by
  intro c l d
  simpa only [Cfg.IsStartPulse, InWindow, Nat.cast_mul, Nat.cast_ofNat] using isStart_iff c l d

/-! ### The symbol of a window -/

theorem isShort_or_isLong_or_unrecognised (c : Cfg) (d : BitVec 32) : c.IsShort d ∨ c.IsLong d ∨ c.Unrecognised d := by
  unfold Cfg.IsShort Cfg.IsLong Cfg.Unrecognised
  tauto

theorem not_unrecognised_of_isShort {c : Cfg} {d : BitVec 32} (h : c.IsShort d) : ¬ c.Unrecognised d :=
  fun ⟨hshort, _⟩ => hshort h

theorem not_unrecognised_of_isLong {c : Cfg} {d : BitVec 32} (h : c.IsLong d) : ¬ c.Unrecognised d :=
  fun ⟨_, hlong⟩ => hlong h.2

theorem isShort_or_isLong_of_not_unrecognised {c : Cfg} {d : BitVec 32} (h : ¬ c.Unrecognised d) :
    c.IsShort d ∨ c.IsLong d :=
  (isShort_or_isLong_or_unrecognised c d).imp_right fun hd => hd.resolve_right h

/-- R61, R62: the short window is asked first. -/
theorem classify_of_isShort {c : Cfg} {d : BitVec 32} (h : c.IsShort d) (l : Bool) : classify c l d = shortSymbol l :=
  if_pos ((matchWindow_iff_inWindow _ _ _).mpr h)

theorem classify_of_isLong {c : Cfg} {d : BitVec 32} (h : c.IsLong d) (l : Bool) : classify c l d = longSymbol l :=
  (if_neg (mt (matchWindow_iff_inWindow _ _ _).mp h.1)).trans (if_pos ((matchWindow_iff_inWindow _ _ _).mpr h.2))

theorem classify_of_unrecognised {c : Cfg} {d : BitVec 32} (h : c.Unrecognised d) (l : Bool) :
    classify c l d = .reset :=
  (if_neg (mt (matchWindow_iff_inWindow _ _ _).mp h.1)).trans (if_neg (mt (matchWindow_iff_inWindow _ _ _).mp h.2))

/-- The short symbol, the long symbol and Reset are three symbols, also at one level. -/
theorem halfSymbols_ne (l : Bool) :
    shortSymbol l ≠ longSymbol l ∧ shortSymbol l ≠ .reset ∧ longSymbol l ≠ .reset := by
  revert l
  decide

theorem classify_eq_shortSymbol_iff (c : Cfg) (l : Bool) (d : BitVec 32) :
    classify c l d = shortSymbol l ↔ c.IsShort d := by
  obtain ⟨hsl, hsr, -⟩ := halfSymbols_ne l
  refine ⟨fun hy => ?_, fun h => classify_of_isShort h l⟩
  rcases isShort_or_isLong_or_unrecognised c d with h | h | h
  · exact h
  · exact absurd (hy.symm.trans (classify_of_isLong h l)) hsl
  · exact absurd (hy.symm.trans (classify_of_unrecognised h l)) hsr

theorem classify_eq_longSymbol_iff (c : Cfg) (l : Bool) (d : BitVec 32) :
    classify c l d = longSymbol l ↔ c.IsLong d := by
  obtain ⟨hsl, -, hlr⟩ := halfSymbols_ne l
  refine ⟨fun hy => ?_, fun h => classify_of_isLong h l⟩
  rcases isShort_or_isLong_or_unrecognised c d with h | h | h
  · exact absurd ((classify_of_isShort h l).symm.trans hy) hsl
  · exact h
  · exact absurd (hy.symm.trans (classify_of_unrecognised h l)) hlr

theorem classify_eq_reset_iff (c : Cfg) (l : Bool) (d : BitVec 32) : classify c l d = .reset ↔ c.Unrecognised d := by
  obtain ⟨-, hsr, hlr⟩ := halfSymbols_ne l
  refine ⟨fun hy => ?_, fun h => classify_of_unrecognised h l⟩
  rcases isShort_or_isLong_or_unrecognised c d with h | h | h
  · exact absurd ((classify_of_isShort h l).symm.trans hy) hsr
  · exact absurd ((classify_of_isLong h l).symm.trans hy) hlr
  · exact h

/-- R52: the bits `R, Lg, Lv` of a short half-symbol. -/
theorem shortSymbol_code (l : Bool) : (shortSymbol l).code = 0b00#2 ++ BitVec.ofBool l := by
  cases l <;> rfl

/-- R52: the bits `R, Lg, Lv` of a long half-symbol. -/
theorem longSymbol_code (l : Bool) : (longSymbol l).code = 0b01#2 ++ BitVec.ofBool l := by
  cases l <;> rfl

/-- Settles O24: the symbol of each window, then the code of that symbol. -/
theorem classifierGivesTheSymbolOfItsWindow : Obligations.ClassifierGivesTheSymbolOfItsWindow := by
  intro c l d
  refine ⟨fun h => classify_of_isShort h l, fun h => classify_of_isLong h l, fun h => classify_of_unrecognised h l,
    fun h => ?_, fun h => ?_, fun h => ?_⟩
  · rw [classify_of_isShort h, shortSymbol_code]
  · rw [classify_of_isLong h, longSymbol_code]
  · rw [classify_of_unrecognised h]
    rfl

/-- R65: admission keeps the windows apart, so the long window is never shadowed by the short one. -/
theorem isLong_of_inWindow {c : Cfg} (hc : c.admitted = true) {d : BitVec 32}
    (h : InWindow d.toNat c.longUs.toNat c.toleranceUs.toNat) : c.IsLong d := by
  obtain ⟨-, hgap⟩ := admitted_windows hc
  refine ⟨fun hshort => ?_, h⟩
  rw [inWindow_iff_range] at h hshort
  omega

/-- Settles O25: admission makes every duration of the long window a long one. -/
theorem admittedWindowsAreDisjoint : Obligations.AdmittedWindowsAreDisjoint := fun _ l _ hc =>
  ⟨fun h => classify_of_isShort h l, fun h => classify_of_isLong (isLong_of_inWindow hc h) l,
    fun h => classify_of_unrecognised h l⟩

/-- Settles O23: under `SAMPLE` the tolerance is 61, and the references are 123, 244 and, for the start, 488. -/
theorem windowsAreIntegerRanges : Obligations.WindowsAreIntegerRanges := by
  refine ⟨fun d ref tol _ => (matchWindow_iff_inWindow d ref tol).trans (inWindow_iff_range d ref tol), fun l d => ?_⟩
  have hshort : InWindow d.toNat Cfg.sample.shortUs.toNat Cfg.sample.toleranceUs.toNat ↔
      123 + 1 - 61 ≤ d.toNat ∧ d.toNat + 1 ≤ 123 + 61 := inWindow_iff_range _ _ _
  have hlong : InWindow d.toNat Cfg.sample.longUs.toNat Cfg.sample.toleranceUs.toNat ↔
      244 + 1 - 61 ≤ d.toNat ∧ d.toNat + 1 ≤ 244 + 61 := inWindow_iff_range _ _ _
  have hstart : InWindow d.toNat (2 * Cfg.sample.longUs.toNat) Cfg.sample.toleranceUs.toNat ↔
      488 + 1 - 61 ≤ d.toNat ∧ d.toNat + 1 ≤ 488 + 61 := inWindow_iff_range _ _ _
  rw [classify_eq_shortSymbol_iff, classify_eq_longSymbol_iff, classify_eq_reset_iff, isStart_iff, Cfg.IsShort,
    Cfg.IsLong, Cfg.Unrecognised, Cfg.IsStartPulse, hshort, hlong, hstart]
  exact ⟨by omega, by omega, by omega, and_congr_right fun _ => by omega⟩

/-! ### The four kinds of event -/

section
variable {s : State} {l : Bool} {d : BitVec 32}

theorem State.Breaks.not_unrecognised (h : s.Breaks l d) : ¬ s.cfg.Unrecognised d := by
  rcases h with ⟨hd, -⟩ | ⟨hshort, -⟩ | ⟨hlong, -⟩
  · exact hd
  · exact not_unrecognised_of_isShort hshort
  · exact not_unrecognised_of_isLong hlong

theorem State.TakesHalf.not_unrecognised (h : s.TakesHalf l d) : ¬ s.cfg.Unrecognised d :=
  not_unrecognised_of_isShort h.1

theorem State.Emits.not_unrecognised {b : Bool} (h : s.Emits l d b) : ¬ s.cfg.Unrecognised d := by
  rcases h with ⟨hshort, -⟩ | ⟨hlong, -⟩
  · exact not_unrecognised_of_isShort hshort
  · exact not_unrecognised_of_isLong hlong

/-- The line decoder on a duration in neither window: back to its initial state, no violation (R67, R73). -/
theorem manStep_of_unrecognised (h : s.cfg.Unrecognised d) :
    manStep s.cfg.manInitLevel s.man (classify s.cfg l d) =
      ⟨⟨.awaitingFirstHalf, s.cfg.manInitLevel⟩, none, false⟩ := by
  rw [classify_of_unrecognised h]
  rfl

/-- The line decoder on an event that breaks the coding rules (R67, R81). -/
theorem State.Breaks.manStep_eq (h : s.Breaks l d) :
    manStep s.cfg.manInitLevel s.man (classify s.cfg l d) = manViolation s.cfg.manInitLevel := by
  rcases h with ⟨hd, hp, hl⟩ | ⟨hshort, hp, rfl⟩ | ⟨hlong, hp⟩
  · rcases isShort_or_isLong_of_not_unrecognised hd with hshort | hlong
    · rw [classify_of_isShort hshort, manStep_shortSymbol]
      simp [manShort, State.man, hp, hl]
    · rw [classify_of_isLong hlong, manStep_longSymbol]
      simp [manLong, State.man, hp, hl]
  · rw [classify_of_isShort hshort, manStep_shortSymbol]
    simp [manShort, State.man, hp]
  · rw [classify_of_isLong hlong, manStep_longSymbol]
    simp [manLong, State.man, hp]

/-- The line decoder on the first half of a pair (R67, R76). -/
theorem State.TakesHalf.manStep_eq (h : s.TakesHalf l d) :
    manStep s.cfg.manInitLevel s.man (classify s.cfg l d) = ⟨⟨.haveFirstHalf, l⟩, none, false⟩ := by
  obtain ⟨hshort, hp, rfl⟩ := h
  rw [classify_of_isShort hshort, manStep_shortSymbol]
  simp [manShort, State.man, hp]

/-- The line decoder on an event that completes a pair (R67). -/
theorem State.Emits.manStep_eq {b : Bool} (h : s.Emits l d b) :
    manStep s.cfg.manInitLevel s.man (classify s.cfg l d) = ⟨⟨.awaitingFirstHalf, b⟩, some b, false⟩ := by
  rcases h with ⟨hshort, hp, rfl, rfl⟩ | ⟨hlong, hp, rfl, rfl⟩
  · rw [classify_of_isShort hshort, manStep_shortSymbol]
    simp [manShort, State.man, hp]
  · rw [classify_of_isLong hlong, manStep_longSymbol]
    simp [manLong, State.man, hp]

variable (s l d)

/-- Every event is of one of the four kinds, by its window, the phase of the line decoder, and its level. -/
theorem event_kinds : s.cfg.Unrecognised d ∨ s.Breaks l d ∨ s.TakesHalf l d ∨ ∃ b, s.Emits l d b := by
  by_cases hd : s.cfg.Unrecognised d
  · exact .inl hd
  refine .inr ?_
  cases hp : s.manPhase with
  | awaitingFirstHalf =>
    by_cases hl : l = s.manLvl
    · rcases isShort_or_isLong_of_not_unrecognised hd with hshort | hlong
      · exact .inr (.inl ⟨hshort, hp, hl⟩)
      · exact .inr (.inr ⟨_, .inr ⟨hlong, hp, hl, rfl⟩⟩)
    · exact .inl (.inl ⟨hd, hp, hl⟩)
  | haveFirstHalf =>
    rcases isShort_or_isLong_of_not_unrecognised hd with hshort | hlong
    · by_cases hl : l = s.manLvl
      · exact .inl (.inr (.inl ⟨hshort, hp, hl⟩))
      · exact .inr (.inr ⟨_, .inl ⟨hshort, hp, Bool.eq_not_of_ne hl, rfl⟩⟩)
    · exact .inl (.inr (.inr ⟨hlong, hp⟩))

theorem breaks_iff_viol :
    s.Breaks l d ↔ (manStep s.cfg.manInitLevel s.man (classify s.cfg l d)).viol = true := by
  refine ⟨fun h => by rw [h.manStep_eq]; rfl, fun hviol => ?_⟩
  rcases event_kinds s l d with h | h | h | ⟨b, h⟩
  · rw [manStep_of_unrecognised h] at hviol
    cases hviol
  · exact h
  · rw [h.manStep_eq] at hviol
    cases hviol
  · rw [h.manStep_eq] at hviol
    cases hviol

theorem emits_iff_out (b : Bool) :
    s.Emits l d b ↔ (manStep s.cfg.manInitLevel s.man (classify s.cfg l d)).out = some b := by
  refine ⟨fun h => by rw [h.manStep_eq], fun hout => ?_⟩
  rcases event_kinds s l d with h | h | h | ⟨b', h⟩
  · rw [manStep_of_unrecognised h] at hout
    cases hout
  · rw [h.manStep_eq] at hout
    cases hout
  · rw [h.manStep_eq] at hout
    cases hout
  · rw [h.manStep_eq] at hout
    cases hout
    exact h

/-- A first half is what remains: a recognised event without a violation and without a bit. -/
theorem takesHalf_iff_answer :
    s.TakesHalf l d ↔ classify s.cfg l d ≠ .reset ∧
      (manStep s.cfg.manInitLevel s.man (classify s.cfg l d)).viol = false ∧
      (manStep s.cfg.manInitLevel s.man (classify s.cfg l d)).out = none := by
  rw [Ne, classify_eq_reset_iff]
  refine ⟨fun h => ⟨h.not_unrecognised, by rw [h.manStep_eq], by rw [h.manStep_eq]⟩, fun ⟨hd, hviol, hout⟩ => ?_⟩
  rcases event_kinds s l d with h | h | h | ⟨b, h⟩
  · exact absurd h hd
  · rw [(breaks_iff_viol s l d).mp h] at hviol
    cases hviol
  · exact h
  · rw [(emits_iff_out s l d b).mp h] at hout
    cases hout

end

/-- Settles O38: the line decoder answers each kind differently, so that no two kinds hold at once. -/
theorem everyEventIsOneOfFourKinds : Obligations.EveryEventIsOneOfFourKinds := by
  intro s l d y r
  have hnone (h : s.cfg.Unrecognised d) : r = ⟨⟨.awaitingFirstHalf, s.cfg.manInitLevel⟩, none, false⟩ :=
    manStep_of_unrecognised h
  have hbreaks (h : s.Breaks l d) : r = manViolation s.cfg.manInitLevel := h.manStep_eq
  have hhalf (h : s.TakesHalf l d) : r = ⟨⟨.haveFirstHalf, l⟩, none, false⟩ := h.manStep_eq
  have hemits (b : Bool) (h : s.Emits l d b) : r = ⟨⟨.awaitingFirstHalf, b⟩, some b, false⟩ := h.manStep_eq
  refine ⟨(classify_eq_reset_iff _ l d).symm, breaks_iff_viol s l d, takesHalf_iff_answer s l d, emits_iff_out s l d,
    ?_, fun h => by rw [hhalf h], fun b h => by rw [hemits b h], event_kinds s l d,
    fun ⟨hd, h⟩ => h.not_unrecognised hd, fun ⟨hd, h⟩ => h.not_unrecognised hd, fun ⟨h, h'⟩ => ?_,
    fun b h => ⟨h.not_unrecognised, fun h' => ?_, fun h' => ?_, fun b' h' => ?_⟩⟩
  · rintro (h | h)
    · rw [hnone h]
      exact ⟨rfl, rfl⟩
    · rw [hbreaks h]
      exact ⟨rfl, rfl⟩
  · cases (hbreaks h).symm.trans (hhalf h')
  · cases (hbreaks h').symm.trans (hemits b h)
  · cases (hhalf h').symm.trans (hemits b h)
  · cases (hemits b h).symm.trans (hemits b' h')
    rfl

end Sys2Proof.Machine
end

section
/-!
The line decoder (41_line_decoder.md R66 to R73, R76, R81): the rows of its table, its symbols on the stand-alone input,
its violations, and what the frame machine makes of them.
-/

namespace Sys2Proof.Machine

/-! ### The rows of the table -/

section
variable (init b l : Bool)

/-- R67: the first half of a pair. -/
theorem manStep_await_short :
    manStep init ⟨.awaitingFirstHalf, b⟩ (shortSymbol b) = ⟨⟨.haveFirstHalf, b⟩, none, false⟩ :=
  (manStep_shortSymbol _ _ _).trans (if_pos rfl)

/-- R67, R81: in AWAIT a short of the other level. -/
theorem manStep_await_short_not : manStep init ⟨.awaitingFirstHalf, b⟩ (shortSymbol !b) = manViolation init :=
  (manStep_shortSymbol _ _ _).trans (if_neg (Bool.not_ne_self b))

/-- R67: in AWAIT a long of the expected level is a bit of the other level. -/
theorem manStep_await_long :
    manStep init ⟨.awaitingFirstHalf, b⟩ (longSymbol b) = ⟨⟨.awaitingFirstHalf, !b⟩, some (!b), false⟩ :=
  (manStep_longSymbol _ _ _).trans (if_pos rfl)

/-- R67, R81: in AWAIT a long of the other level. -/
theorem manStep_await_long_not : manStep init ⟨.awaitingFirstHalf, b⟩ (longSymbol !b) = manViolation init :=
  (manStep_longSymbol _ _ _).trans (if_neg (Bool.not_ne_self b))

/-- R67: the second half of a pair. -/
theorem manStep_have_short_not :
    manStep init ⟨.haveFirstHalf, b⟩ (shortSymbol !b) = ⟨⟨.awaitingFirstHalf, b⟩, some b, false⟩ :=
  (manStep_shortSymbol _ _ _).trans (if_pos rfl)

/-- R67, R81: in HAVE a short of the same level. -/
theorem manStep_have_short : manStep init ⟨.haveFirstHalf, b⟩ (shortSymbol b) = manViolation init :=
  (manStep_shortSymbol _ _ _).trans (if_neg (Bool.self_ne_not b))

/-- R67, R81: in HAVE any long. -/
theorem manStep_have_long : manStep init ⟨.haveFirstHalf, b⟩ (longSymbol l) = manViolation init :=
  manStep_longSymbol _ _ _

end

/-- Settles O27, row by row. -/
theorem lineDecoderTransitionTable : Obligations.LineDecoderTransitionTable := fun init b =>
  ⟨manStep_await_short init b, manStep_await_short_not init b, manStep_await_long init b,
    manStep_await_long_not init b, manStep_have_short_not init b, manStep_have_short init b,
    manStep_have_long init b, fun _ => rfl⟩

/-- A long half-symbol is accepted in AWAIT at its own level alone. -/
theorem manStep_long_of_ne (init : Bool) {m : ManState} {l : Bool} (h : m ≠ ⟨.awaitingFirstHalf, l⟩) :
    manStep init m (longSymbol l) = manViolation init := by
  obtain ⟨p, b⟩ := m
  cases p with
  | awaitingFirstHalf =>
    obtain rfl : l = !b := Bool.eq_not_of_ne fun hl => h (by rw [hl])
    exact manStep_await_long_not init b
  | haveFirstHalf => exact manStep_have_long init b l

/-! ### The symbols on the stand-alone input -/

/-- A symbol's step on the stand-alone line decoder, by the row of the table it takes (R66). -/
theorem exec_symbolInstr_of_row {s : State} {y : Symbol} {m : ManState} {r : ManResult} (hld : s.ld = m)
    (hrow : manStep s.cfg.manInitLevel m y = r) :
    exec (symbolInstr y) s = .next { s.quiet with ld := r.next, ldBit := r.out, ldViol := r.viol } := by
  rw [exec_symbolInstr, ← hrow, ← hld]
  rfl

/-- Settles O28. -/
theorem shortLowFollowsItsRule : Obligations.ShortLowFollowsItsRule := fun _ =>
  ⟨fun h => exec_symbolInstr_of_row (y := .shortLow) h (manStep_await_short _ false),
    fun h => exec_symbolInstr_of_row (y := .shortLow) h (manStep_have_short_not _ true),
    fun h => h.elim
      (fun h => exec_symbolInstr_of_row (y := .shortLow) h (manStep_await_short_not _ true))
      (fun h => exec_symbolInstr_of_row (y := .shortLow) h (manStep_have_short _ false))⟩

/-- Settles O29. -/
theorem shortHighFollowsItsRule : Obligations.ShortHighFollowsItsRule := fun _ =>
  ⟨fun h => exec_symbolInstr_of_row (y := .shortHigh) h (manStep_await_short _ true),
    fun h => exec_symbolInstr_of_row (y := .shortHigh) h (manStep_have_short_not _ false),
    fun h => h.elim
      (fun h => exec_symbolInstr_of_row (y := .shortHigh) h (manStep_await_short_not _ false))
      (fun h => exec_symbolInstr_of_row (y := .shortHigh) h (manStep_have_short _ true))⟩

/-- Settles O30. -/
theorem longLowFollowsItsRule : Obligations.LongLowFollowsItsRule := fun _ =>
  ⟨fun h => exec_symbolInstr_of_row (y := .longLow) h (manStep_await_long _ false),
    fun h => exec_symbolInstr_of_row (y := .longLow) rfl (manStep_long_of_ne (l := false) _ h)⟩

/-- Settles O31. -/
theorem longHighFollowsItsRule : Obligations.LongHighFollowsItsRule := fun _ =>
  ⟨fun h => exec_symbolInstr_of_row (y := .longHigh) h (manStep_await_long _ true),
    fun h => exec_symbolInstr_of_row (y := .longHigh) rfl (manStep_long_of_ne (l := true) _ h)⟩

/-- Settles O32. -/
theorem resetSymbolReturnsToTheInitialState : Obligations.ResetSymbolReturnsToTheInitialState := fun _ =>
  exec_symbolInstr_of_row (y := .reset) rfl rfl

/-! ### Codes -/

theorem symbolCode_toNat_le (y : Symbol) : y.code.toNat ≤ 4 := by
  cases y <;> decide

/-- R52: the codes `101`, `110` and `111` are reserved, and no other. -/
theorem decodeSymbol_eq_reject_iff (c : BitVec 3) : decodeSymbol c = .reject .reservedSymbol ↔ 4 < c.toNat := by
  revert c
  decide

/-- The line-decoder state of a code, phase bit then level bit (R53). -/
def ManState.ofCode (k : BitVec 2) : ManState :=
  ⟨if k.getLsbD 1 then .haveFirstHalf else .awaitingFirstHalf, k.getLsbD 0⟩

theorem ManState.code_ofCode (k : BitVec 2) : (ManState.ofCode k).code = k := by
  revert k
  decide

theorem ManState.ofCode_code (m : ManState) : ManState.ofCode m.code = m := by
  obtain ⟨p, l⟩ := m
  cases p <;> cases l <;> rfl

/-- Settles O5: a code either is a symbol's or is reserved, and the codes of the line-decoder states can be read back. -/
theorem reservedSymbolCodesAreRefused : Obligations.ReservedSymbolCodesAreRefused := by
  refine ⟨fun c => ⟨fun ⟨i, hi⟩ => ?_, fun hc => ?_⟩, fun s c rest hin hc => ?_, fun _ _ _ => symbolCode_toNat_le _,
    fun k => ⟨.ofCode k, ManState.code_ofCode k, fun m hm => ?_⟩, fun _ => ⟨rfl, rfl⟩, rfl, rfl, rfl⟩
  · rcases decodeSymbol_cases c with ⟨y, rfl, -⟩ | hreject
    · exact symbolCode_toNat_le y
    · cases hreject.symm.trans hi
  · rcases decodeSymbol_cases c with ⟨y, -, hy⟩ | hreject
    · exact ⟨_, hy⟩
    · exact absurd ((decodeSymbol_eq_reject_iff c).mp hreject) (Nat.not_lt.mpr hc)
  · have hreject : decode (.sym c) = .reject .reservedSymbol := (decodeSymbol_eq_reject_iff c).mpr hc
    rw [step, fetch_of_symbol hin, State.decoded, hreject]
    rfl
  · rw [← ManState.ofCode_code m, hm]

/-! ### Violations -/

/-- The three cases of R81: in AWAIT a symbol of the other level, in HAVE a short of the same level or any long. -/
def ManState.BrokenBy (m : ManState) (y : Symbol) : Prop :=
  (m.phase = .awaitingFirstHalf ∧ (y = shortSymbol (!m.lvl) ∨ y = longSymbol (!m.lvl))) ∨
  (m.phase = .haveFirstHalf ∧ y = shortSymbol m.lvl) ∨
  (m.phase = .haveFirstHalf ∧ ∃ l, y = longSymbol l)

theorem ManState.BrokenBy.manStep_eq {m : ManState} {y : Symbol} (h : m.BrokenBy y) (init : Bool) :
    manStep init m y = manViolation init := by
  obtain ⟨p, b⟩ := m
  rcases h with ⟨rfl, rfl | rfl⟩ | ⟨rfl, rfl⟩ | ⟨rfl, l, rfl⟩
  · exact manStep_await_short_not init b
  · exact manStep_await_long_not init b
  · exact manStep_have_short init b
  · exact manStep_have_long init b l

/-- A symbol is a short of a given level or of the other, a long, or Reset. -/
theorem symbol_kinds (b : Bool) (y : Symbol) :
    y = shortSymbol b ∨ y = shortSymbol (!b) ∨ (∃ l, y = longSymbol l) ∨ y = .reset := by
  cases y with
  | shortLow => cases b <;> simp [shortSymbol]
  | shortHigh => cases b <;> simp [shortSymbol]
  | longLow => exact .inr (.inr (.inl ⟨false, rfl⟩))
  | longHigh => exact .inr (.inr (.inl ⟨true, rfl⟩))
  | reset => exact .inr (.inr (.inr rfl))

/-- Only the three cases violate: every other row of the table has `viol = 0`. -/
theorem brokenBy_of_viol {init : Bool} {m : ManState} {y : Symbol} (h : (manStep init m y).viol = true) :
    m.BrokenBy y := by
  obtain ⟨p, b⟩ := m
  rcases symbol_kinds b y with rfl | rfl | ⟨l, rfl⟩ | rfl
  · cases p with
    | awaitingFirstHalf => cases (congrArg ManResult.viol (manStep_await_short init b)).symm.trans h
    | haveFirstHalf => exact .inr (.inl ⟨rfl, rfl⟩)
  · cases p with
    | awaitingFirstHalf => exact .inl ⟨rfl, .inl rfl⟩
    | haveFirstHalf => cases (congrArg ManResult.viol (manStep_have_short_not init b)).symm.trans h
  · cases p with
    | awaitingFirstHalf =>
      by_cases hl : l = b
      · cases (congrArg ManResult.viol (manStep_await_long init b)).symm.trans (hl ▸ h)
      · exact .inl ⟨rfl, .inr (by rw [Bool.eq_not_of_ne hl])⟩
    | haveFirstHalf => exact .inr (.inr ⟨rfl, l, rfl⟩)
  · cases h

/-! ### The frame machine on a line event -/

section
variable {s : State} {l : Bool} {d : BitVec 32}

theorem exec_feed_of_live (hl : s.live = true) :
    exec (.feed l d) s =
      .next (State.drive { (s.frameStep l d).state with live := true } (s.frameStep l d).record) :=
  if_pos hl

/-- Outside Reset the frame step is the line event, with one bit action or the other (R84). -/
theorem frameStep_of_ne_reset (hf : s.frame ≠ .reset) : ∃ act, s.frameStep l d = s.lineEvent l d act := by
  rcases frameStep_cases s l d with ⟨h, -⟩ | ⟨h, -⟩ | ⟨-, h⟩ | ⟨-, h⟩
  · exact absurd h hf
  · exact absurd h hf
  · exact ⟨_, h⟩
  · exact ⟨_, h⟩

/-- R84: a violation aborts, before any bit action. -/
theorem State.Breaks.frameStep_eq (h : s.Breaks l d) (hf : s.frame ≠ .reset) :
    s.frameStep l d = s.abort .illegalTransition := by
  obtain ⟨act, hact⟩ := frameStep_of_ne_reset (l := l) (d := d) hf
  rw [hact]
  have hviol := (breaks_iff_viol s l d).mp h
  rcases lineEvent_cases s l d act with ⟨hreset, -⟩ | ⟨-, -, hr⟩ | ⟨-, hno, -⟩ | ⟨b, -, hno, -⟩
  · exact absurd ((classify_eq_reset_iff _ l d).mp hreset) h.not_unrecognised
  · exact hr
  · cases hno.symm.trans hviol
  · cases hno.symm.trans hviol

/-- R76: a first half is taken into the line decoder, before any bit action. -/
theorem State.TakesHalf.frameStep_eq (h : s.TakesHalf l d) (hf : s.frame ≠ .reset) :
    s.frameStep l d = ⟨s.setMan ⟨.haveFirstHalf, l⟩, none, none⟩ := by
  obtain ⟨act, hact⟩ := frameStep_of_ne_reset (l := l) (d := d) hf
  rw [hact]
  have hrow := h.manStep_eq
  rcases lineEvent_cases s l d act with ⟨hreset, -⟩ | ⟨-, hviol, -⟩ | ⟨-, -, -, hr⟩ | ⟨b, -, -, hout, -⟩
  · exact absurd ((classify_eq_reset_iff _ l d).mp hreset) h.not_unrecognised
  · rw [hrow] at hviol
    cases hviol
  · rw [hr, hrow]
  · rw [hrow] at hout
    cases hout

end

/-- Settles O33: the three cases by the rows of the table, the abort by the frame step on an event that breaks the coding
rules. -/
theorem violationsAreExactlyTheThreeCases : Obligations.ViolationsAreExactlyTheThreeCases := by
  refine ⟨fun init m y => ⟨⟨brokenBy_of_viol, fun h => ?_⟩, fun hviol => ?_⟩, fun s l d hlive hf hviol => ?_⟩
  · rw [ManState.BrokenBy.manStep_eq h]
    rfl
  · rw [(brokenBy_of_viol hviol).manStep_eq]
    exact ⟨rfl, rfl⟩
  · rw [exec_feed_of_live hlive, ((breaks_iff_viol s l d).mpr hviol).frameStep_eq hf]
    rfl

/-- Settles O40: the line decoder keeps the level, which is the event's. -/
theorem firstHalfSymbolSuspendsTheLineDecoder : Obligations.FirstHalfSymbolSuspendsTheLineDecoder := by
  intro s l d hlive hf h
  rw [exec_feed_of_live hlive, h.frameStep_eq hf, h.2.2, ← hlive]
  rfl

end Sys2Proof.Machine
end

section
/-!
The Manchester round trip (41_line_decoder.md R78, R79): the encoding bit by bit, the line decoder on one bit's symbols,
and the same run on the machine's symbol input (log entry 6).
-/

namespace Sys2Proof.Machine

/-! ### The encoding, bit by bit -/

/-- The symbols of one bit at line level `l`: a pair of shorts for a bit that keeps the level, one long for a bit that
changes it (R74). -/
def bitSymbols (l b : Bool) : List Symbol :=
  if b = l then [shortSymbol l, shortSymbol !l] else [longSymbol l]

/-- The first run has the level of the first cell. -/
theorem levelRuns_head (cs : List Bool) : (levelRuns cs).head?.map Prod.fst = cs.head? := by
  cases cs with
  | nil => rfl
  | cons c cs =>
    unfold levelRuns
    split
    · rfl
    · split
      next hl => exact congrArg some hl
      next => rfl

/-- A cell before a change of level is a run of its own. -/
theorem levelRuns_cons_of_head_ne {c : Bool} {cs : List Bool} (h : cs.head? ≠ some c) :
    levelRuns (c :: cs) = (c, 1) :: levelRuns cs := by
  rw [← levelRuns_head] at h
  rw [levelRuns]
  cases hr : levelRuns cs with
  | nil => rfl
  | cons r rs =>
    have hne : r.1 ≠ c := fun hc => h (by rw [hr, ← hc]; rfl)
    exact if_neg hne

/-- Two cells of one level before a change of level are one run. -/
theorem levelRuns_cons_cons_of_head_ne {c : Bool} {cs : List Bool} (h : cs.head? ≠ some c) :
    levelRuns (c :: c :: cs) = (c, 2) :: levelRuns cs := by
  rw [levelRuns, levelRuns_cons_of_head_ne h]
  exact if_pos rfl

/-- The cells that an encoding is made from (R78): the level, the bits' cells, less the last cell. -/
def sentCells (l : Bool) (bits : List Bool) : List Bool := (l :: bitCells bits).dropLast

theorem manchesterEncode_eq (l : Bool) (bits : List Bool) :
    manchesterEncode l bits = (levelRuns (sentCells l bits)).map runSymbol := rfl

theorem sentCells_cons (l b : Bool) (bs : List Bool) : sentCells l (b :: bs) = l :: (!b) :: sentCells b bs := rfl

theorem sentCells_head_ne (l : Bool) (bits : List Bool) : (sentCells l bits).head? ≠ some (!l) := by
  cases bits with
  | nil => simp [sentCells, bitCells]
  | cons b bs => simp [sentCells_cons]

/-- R78: each bit adds its own symbols, which depend on the bit before it alone. -/
theorem manchesterEncode_cons (l b : Bool) (bs : List Bool) :
    manchesterEncode l (b :: bs) = bitSymbols l b ++ manchesterEncode b bs := by
  have hhead := sentCells_head_ne b bs
  rw [manchesterEncode_eq, sentCells_cons]
  by_cases hb : b = l
  · subst hb
    rw [levelRuns_cons_of_head_ne (by simp), levelRuns_cons_of_head_ne hhead, bitSymbols, if_pos rfl]
    rfl
  · obtain rfl : l = !b := Bool.eq_not_of_ne (Ne.symm hb)
    rw [levelRuns_cons_cons_of_head_ne hhead, bitSymbols, if_neg hb]
    rfl

/-! ### The round trip -/

theorem runLine_append (init : Bool) (m : ManState) (xs ys : List Symbol) :
    runLine init m (xs ++ ys) =
      ((runLine init (runLine init m xs).1 ys).1,
        (runLine init m xs).2.1 ++ (runLine init (runLine init m xs).1 ys).2.1,
        (runLine init m xs).2.2 || (runLine init (runLine init m xs).1 ys).2.2) := by
  induction xs generalizing m with
  | nil => rfl
  | cons x xs ih => simp only [List.cons_append, runLine, ih, List.append_assoc, Bool.or_assoc]

/-- One bit's symbols emit the bit and leave the line decoder waiting at its level. -/
theorem runLine_bitSymbols (init l b : Bool) :
    runLine init ⟨.awaitingFirstHalf, l⟩ (bitSymbols l b) = (⟨.awaitingFirstHalf, b⟩, [b], false) := by
  by_cases hb : b = l
  · simp [bitSymbols, hb, runLine, manStep_await_short, manStep_have_short_not]
  · obtain rfl : b = !l := Bool.eq_not_of_ne hb
    simp [bitSymbols, runLine, manStep_await_long]

/-- Without their last symbol, one bit's symbols emit nothing. -/
theorem runLine_bitSymbols_dropLast (init l b : Bool) :
    (runLine init ⟨.awaitingFirstHalf, l⟩ (bitSymbols l b).dropLast).2 = ([], false) := by
  by_cases hb : b = l
  · simp [bitSymbols, hb, runLine, manStep_await_short]
  · simp [bitSymbols, hb, runLine]

/-- A bit's symbols before other symbols put the bit before theirs. -/
theorem runLine_bitSymbols_append (init l b : Bool) (ys : List Symbol) :
    (runLine init ⟨.awaitingFirstHalf, l⟩ (bitSymbols l b ++ ys)).2 =
      (b :: (runLine init ⟨.awaitingFirstHalf, b⟩ ys).2.1, (runLine init ⟨.awaitingFirstHalf, b⟩ ys).2.2) := by
  rw [runLine_append, runLine_bitSymbols]
  rfl

theorem runLine_manchesterEncode (init l : Bool) (bits : List Bool) :
    (runLine init ⟨.awaitingFirstHalf, l⟩ (manchesterEncode l bits)).2 = (bits, false) := by
  induction bits generalizing l with
  | nil => rfl
  | cons b bs ih => rw [manchesterEncode_cons, runLine_bitSymbols_append, ih]

theorem manchesterEncode_ne_nil (l b : Bool) (bs : List Bool) : manchesterEncode l (b :: bs) ≠ [] := by
  rw [manchesterEncode_cons, bitSymbols]
  split <;> exact List.cons_ne_nil _ _

/-- The last bit needs the last symbol. -/
theorem runLine_manchesterEncode_dropLast (init l : Bool) (bits : List Bool) :
    (runLine init ⟨.awaitingFirstHalf, l⟩ (manchesterEncode l bits).dropLast).2 = (bits.dropLast, false) := by
  induction bits generalizing l with
  | nil => rfl
  | cons b bs ih =>
    rw [manchesterEncode_cons]
    cases bs with
    | nil => exact (List.append_nil (bitSymbols l b)).symm ▸ runLine_bitSymbols_dropLast init l b
    | cons b' bs =>
      rw [List.dropLast_append_of_ne_nil (manchesterEncode_ne_nil b b' bs), runLine_bitSymbols_append, ih]
      rfl

/-- Settles O34, by induction on the bits: each bit's symbols emit that bit. -/
theorem manchesterRoundTrip : Obligations.ManchesterRoundTrip := fun l0 bits _ =>
  ⟨runLine_manchesterEncode l0 l0 bits, runLine_manchesterEncode_dropLast l0 l0 bits⟩

/-! ### The machine's symbol input -/

theorem decode_code (y : Symbol) : decode (.sym y.code) = .instr (symbolInstr y) := by
  cases y <;> rfl

/-- The word on the symbol input that carries a symbol (R52). -/
def symbolWord (y : Symbol) : PortWord := .sym y.code

/-- A waiting symbol is the line decoder's next step, whose signals the machine's step shows (R66). -/
theorem step_of_symbolWord {s : State} {y : Symbol} {rest : List PortWord} (h : s.input = symbolWord y :: rest) :
    ∃ t, step s = .next t ∧ t.cfg = s.cfg ∧ t.input = rest ∧ t.ld = (manStep s.cfg.manInitLevel s.ld y).next ∧
      t.ldBit = (manStep s.cfg.manInitLevel s.ld y).out ∧ t.ldViol = (manStep s.cfg.manInitLevel s.ld y).viol := by
  rw [stepRunsTheDecodedSymbol s y.code rest _ h (decode_code y), exec_symbolInstr]
  exact ⟨_, rfl, rfl, rfl, rfl, rfl, rfl⟩

/-- Over the symbols first on the input, the machine's steps show the line decoder's run. -/
theorem lineRun_of_symbolWords {ys : List Symbol} {s : State} (h : ys.map symbolWord <+: s.input) :
    lineBits ys.length s = (runLine s.cfg.manInitLevel s.ld ys).2.1 ∧
      lineViolates ys.length s = (runLine s.cfg.manInitLevel s.ld ys).2.2 := by
  induction ys generalizing s with
  | nil => exact ⟨rfl, rfl⟩
  | cons y ys ih =>
    obtain ⟨rest, hrest⟩ := h
    obtain ⟨t, hstep, hcfg, hin, hld, hbit, hviol⟩ := step_of_symbolWord hrest.symm
    obtain ⟨hbits, hviols⟩ := ih (s := t) ⟨rest, hin.symm⟩
    rw [hcfg, hld] at hbits hviols
    simp only [List.length_cons, lineBits, lineViolates, hstep, runLine, hbit, hviol, hbits, hviols, and_self]

/-- Settles O35: the machine's run over the encoding, and over the encoding less its last symbol, is the line decoder's
run of O34. -/
theorem machineReplaysManchesterBits : Obligations.MachineReplaysManchesterBits := by
  intro s bits rest hbits hld hin
  obtain ⟨hall, hbutLast⟩ := manchesterRoundTrip s.cfg.manInitLevel bits hbits
  have hfirst : (manchesterEncode s.cfg.manInitLevel bits).map symbolWord <+: s.input := ⟨rest, hin.symm⟩
  have hrun := lineRun_of_symbolWords hfirst
  have hrunButLast := lineRun_of_symbolWords (((List.dropLast_prefix _).map symbolWord).trans hfirst)
  rw [hld, hall] at hrun
  rw [hld, hbutLast, List.length_dropLast] at hrunButLast
  exact ⟨hrun.1, hrun.2, hrunButLast.1⟩

end Sys2Proof.Machine
end

section
/-!
The frame machine on one event (42_frame_fsm.md R82 to R93): the bit actions case by case, the frame step on each kind
of event, and from these what a FEED answers.
-/

namespace Sys2Proof.Machine

/-! ### The bit actions, case by case -/

/-- Counters are added exactly and written in 16 bits (log entry 10). -/
theorem ofNat_toNat_succ (n : BitVec 16) : BitVec.ofNat 16 (n.toNat + 1) = n + 1#16 := by
  rw [BitVec.ofNat_add, BitVec.ofNat_toNat, BitVec.setWidth_eq]

section
variable {s : State} {u : Bool}

/-- R85: a bit that is no preamble bit. -/
theorem preambleBit_of_ne (hu : u ≠ s.cfg.preambleBit) : s.preambleBit u = s.abort .preambleMismatch := if_pos hu

/-- R85: the last preamble bit. -/
theorem preambleBit_of_last (hu : u = s.cfg.preambleBit) (hp : s.preCount.toNat + 1 = s.cfg.preLen) :
    s.preambleBit u = ⟨{ s with preCount := s.preCount + 1#16, frame := .decodingPayload }, none, none⟩ := by
  rw [State.preambleBit, if_neg (not_not.mpr hu), ← ofNat_toNat_succ]
  exact if_pos hp

/-- R85: a preamble bit before the last. -/
theorem preambleBit_of_not_last (hu : u = s.cfg.preambleBit) (hp : s.preCount.toNat + 1 ≠ s.cfg.preLen) :
    s.preambleBit u = ⟨{ s with preCount := s.preCount + 1#16 }, none, none⟩ := by
  rw [State.preambleBit, if_neg (not_not.mpr hu), ← ofNat_toNat_succ]
  exact if_neg hp

/-- R24: the shift and the or of the accumulator are a doubling and a sum. -/
theorem appended_eq (s : State) (u : Bool) : s.appended u = (2 * s.accValue + u.toNat) % 2 ^ s.cfg.accWidth := by
  rw [State.appended, ← Nat.shiftLeft_add_eq_or_of_lt (by simpa using u.toNat_lt), Nat.shiftLeft_eq, pow_one,
    Nat.mul_comm]

/-- R86: a bit for a full accumulator. -/
theorem payloadBit_of_full (hw : s.accCount.toNat = s.cfg.accWidth) : s.payloadBit u = s.abort .overflow := if_pos hw

/-- R86: the last bit of a frame. -/
theorem payloadBit_of_last (hw : s.accCount.toNat ≠ s.cfg.accWidth) (hk : s.accCount.toNat + 1 = s.cfg.frameBits) :
    s.payloadBit u =
      s.completeFrame (BitVec.ofNat s.cfg.frameBits ((2 * s.accValue + u.toNat) % 2 ^ s.cfg.accWidth)) := by
  rw [← appended_eq]
  exact (if_neg hw).trans (if_pos hk)

/-- R86: a bit that leaves the frame unfinished. -/
theorem payloadBit_of_not_last (hw : s.accCount.toNat ≠ s.cfg.accWidth)
    (hk : s.accCount.toNat + 1 ≠ s.cfg.frameBits) :
    s.payloadBit u =
      ⟨{ s with accValue := (2 * s.accValue + u.toNat) % 2 ^ s.cfg.accWidth, accCount := s.accCount + 1#16 },
        none, none⟩ := by
  rw [← appended_eq, ← ofNat_toNat_succ]
  exact (if_neg hw).trans (if_neg hk)

end

/-- R86: at the end of a frame the record is shown exactly if `CHECK` passes, and the state is at `INIT` either
way. -/
theorem completeFrame_eq (s : State) (f : BitVec s.cfg.frameBits) :
    s.completeFrame f = ⟨s.enterReset, if validate s.cfg f then some (extract s.cfg f) else none,
      some (if validate s.cfg f then .frameComplete else .checkFail)⟩ := by
  rcases completeFrame_cases s f with ⟨hv, hc⟩ | ⟨hv, hc⟩ <;> rw [hc, hv] <;> rfl

/-! ### The frame step on each kind of event -/

section
variable {s : State} {l : Bool} {d : BitVec 32}

/-- R83: the start condition in Reset. -/
theorem frameStep_of_start (hf : s.frame = .reset) (h : s.cfg.IsStartPulse l d) :
    s.frameStep l d = ⟨s.startFrame, none, none⟩ := by
  rw [State.frameStep, hf]
  exact if_pos ((isStart_iff _ _ _).mpr h)

/-- R83: any other event in Reset. -/
theorem frameStep_of_no_start (hf : s.frame = .reset) (h : ¬ s.cfg.IsStartPulse l d) :
    s.frameStep l d = ⟨s, none, none⟩ := by
  rw [State.frameStep, hf]
  exact if_neg (mt (isStart_iff _ _ _).mp h)

/-- R84: a duration in neither window aborts. -/
theorem frameStep_of_unrecognised (hf : s.frame ≠ .reset) (h : s.cfg.Unrecognised d) :
    s.frameStep l d = s.abort .timingMismatch := by
  obtain ⟨act, hact⟩ := frameStep_of_ne_reset (l := l) (d := d) hf
  rw [hact]
  exact if_pos (classify_of_unrecognised h l)

theorem classify_ne_reset {c : Cfg} (h : ¬ c.Unrecognised d) : classify c l d ≠ .reset :=
  mt (classify_eq_reset_iff c l d).mp h

/-- R75, R84: the frame state's bit action gets the emitted bit, after polarity inversion, with the line decoder
stepped. -/
theorem State.Emits.lineEvent_eq {b : Bool} (h : s.Emits l d b) (act : State → Bool → FrameResult) :
    s.lineEvent l d act = act (s.setMan ⟨.awaitingFirstHalf, b⟩) (b ^^ s.cfg.invertBits) := by
  have hsym : classify s.cfg l d ≠ .reset := classify_ne_reset h.not_unrecognised
  simp only [State.lineEvent, h.manStep_eq, if_neg hsym, Bool.false_eq_true, if_false]

theorem State.Emits.frameStep_checkPreamble {b : Bool} (h : s.Emits l d b) (hf : s.frame = .checkPreamble) :
    s.frameStep l d = (s.setMan ⟨.awaitingFirstHalf, b⟩).preambleBit (b ^^ s.cfg.invertBits) := by
  rw [State.frameStep, hf]
  exact h.lineEvent_eq _

theorem State.Emits.frameStep_decodingPayload {b : Bool} (h : s.Emits l d b) (hf : s.frame = .decodingPayload) :
    s.frameStep l d = (s.setMan ⟨.awaitingFirstHalf, b⟩).payloadBit (b ^^ s.cfg.invertBits) := by
  rw [State.frameStep, hf]
  exact h.lineEvent_eq _

/-- R85: a preamble mismatch aborts. -/
theorem State.Emits.frameStep_of_mismatch {b : Bool} (h : s.Emits l d b) (hf : s.frame = .checkPreamble)
    (hu : (b ^^ s.cfg.invertBits) ≠ s.cfg.preambleBit) : s.frameStep l d = s.abort .preambleMismatch :=
  (h.frameStep_checkPreamble hf).trans (preambleBit_of_ne hu)

/-- R85: the last preamble bit begins the payload. -/
theorem State.Emits.frameStep_of_preambleEnd {b : Bool} (h : s.Emits l d b) (hf : s.frame = .checkPreamble)
    (hu : (b ^^ s.cfg.invertBits) = s.cfg.preambleBit) (hp : s.preCount.toNat + 1 = s.cfg.preLen) :
    s.frameStep l d = ⟨{ s.setMan ⟨.awaitingFirstHalf, b⟩ with
      preCount := s.preCount + 1#16, frame := .decodingPayload }, none, none⟩ :=
  (h.frameStep_checkPreamble hf).trans (preambleBit_of_last hu hp)

/-- R85: a preamble bit before the last is counted. -/
theorem State.Emits.frameStep_of_preambleCount {b : Bool} (h : s.Emits l d b) (hf : s.frame = .checkPreamble)
    (hu : (b ^^ s.cfg.invertBits) = s.cfg.preambleBit) (hp : s.preCount.toNat + 1 ≠ s.cfg.preLen) :
    s.frameStep l d =
      ⟨{ s.setMan ⟨.awaitingFirstHalf, b⟩ with preCount := s.preCount + 1#16 }, none, none⟩ :=
  (h.frameStep_checkPreamble hf).trans (preambleBit_of_not_last hu hp)

/-- R86: a bit for a full accumulator aborts. -/
theorem State.Emits.frameStep_of_overflow {b : Bool} (h : s.Emits l d b) (hf : s.frame = .decodingPayload)
    (hw : s.accCount.toNat = s.cfg.accWidth) : s.frameStep l d = s.abort .overflow :=
  (h.frameStep_decodingPayload hf).trans (payloadBit_of_full hw)

/-- R86: the last payload bit ends the frame. -/
theorem State.Emits.frameStep_of_payloadEnd {b : Bool} (h : s.Emits l d b) (hf : s.frame = .decodingPayload)
    (hw : s.accCount.toNat ≠ s.cfg.accWidth) (hk : s.accCount.toNat + 1 = s.cfg.frameBits) :
    s.frameStep l d = s.completeFrame
      (BitVec.ofNat s.cfg.frameBits ((2 * s.accValue + (b ^^ s.cfg.invertBits).toNat) % 2 ^ s.cfg.accWidth)) :=
  (h.frameStep_decodingPayload hf).trans (payloadBit_of_last hw hk)

/-- R86: a payload bit before the last is appended. -/
theorem State.Emits.frameStep_of_append {b : Bool} (h : s.Emits l d b) (hf : s.frame = .decodingPayload)
    (hw : s.accCount.toNat ≠ s.cfg.accWidth) (hk : s.accCount.toNat + 1 ≠ s.cfg.frameBits) :
    s.frameStep l d = ⟨{ s.setMan ⟨.awaitingFirstHalf, b⟩ with
      accValue := (2 * s.accValue + (b ^^ s.cfg.invertBits).toNat) % 2 ^ s.cfg.accWidth
      accCount := s.accCount + 1#16 }, none, none⟩ :=
  (h.frameStep_decodingPayload hf).trans (payloadBit_of_not_last hw hk)

/-! ### What a FEED answers -/

/-- A FEED whose frame step is known: only FREE clears `live`, and the port shows the step's record (R109). -/
theorem exec_feed_of_frameStep {r : FrameResult} (hl : s.live = true) (h : s.frameStep l d = r) :
    exec (.feed l d) s = .next (State.drive { r.state with live := true } r.record) := by
  rw [exec_feed_of_live hl, h]

/-- R87: a FEED whose frame step aborts. -/
theorem exec_feed_of_abort {c : Cause} (hl : s.live = true) (h : s.frameStep l d = s.abort c) :
    exec (.feed l d) s = .next (s.initial true) := exec_feed_of_frameStep hl h

end

/-- Settles O37: the start condition decides the frame step in Reset. -/
theorem feedInResetAsksOnlyTheStartCondition : Obligations.FeedInResetAsksOnlyTheStartCondition := by
  intro s l d hl hf
  refine ⟨fun h => exec_feed_of_frameStep hl (frameStep_of_start hf h), fun h => ?_⟩
  rw [exec_feed_of_frameStep hl (frameStep_of_no_start hf h), ← hl]
  rfl

/-- Settles O39: both kinds of bad event abort before any bit action. -/
theorem badEventMidFrameReturnsToInit : Obligations.BadEventMidFrameReturnsToInit := by
  rintro s l d hl hf (h | h)
  · exact exec_feed_of_abort hl (frameStep_of_unrecognised hf h)
  · exact exec_feed_of_abort hl (h.frameStep_eq hf)

/-- Settles O41, by the cases of R85. -/
theorem preambleBitFollowsItsRule : Obligations.PreambleBitFollowsItsRule := by
  intro s l b d hl hf h
  refine ⟨fun hu => ?_, fun hu hp => ?_, fun hu hp => ?_⟩
  · exact exec_feed_of_abort hl (h.frameStep_of_mismatch hf hu)
  · rw [exec_feed_of_frameStep hl (h.frameStep_of_preambleEnd hf hu hp), ← hl]
    rfl
  · rw [exec_feed_of_frameStep hl (h.frameStep_of_preambleCount hf hu hp), ← hl]
    rfl

/-- R86: the FEED that completes a frame, whatever `CHECK` says of it. -/
theorem exec_feed_of_payloadEnd {s : State} {l b : Bool} {d : BitVec 32} (hl : s.live = true)
    (hf : s.frame = .decodingPayload) (h : s.Emits l d b) (hw : s.accCount.toNat ≠ s.cfg.accWidth)
    (hk : s.accCount.toNat + 1 = s.cfg.frameBits) {f : BitVec s.cfg.frameBits}
    (hv : f = BitVec.ofNat s.cfg.frameBits ((2 * s.accValue + (b ^^ s.cfg.invertBits).toNat) % 2 ^ s.cfg.accWidth)) :
    exec (.feed l d) s = .next { s.initial true with
      out := OutPort.ofRecord (if validate s.cfg f then some (extract s.cfg f) else none) } := by
  rw [exec_feed_of_frameStep hl (h.frameStep_of_payloadEnd hf hw hk), ← hv, completeFrame_eq]
  rfl

/-- Settles O42, by the cases of R86. -/
theorem payloadBitFollowsItsRule : Obligations.PayloadBitFollowsItsRule := by
  intro s l b d hl hf h v f
  refine ⟨fun hw => ?_, fun hw hk hv => ?_, fun hw hk hv => ?_, fun hw hk => ?_⟩
  · exact exec_feed_of_abort hl (h.frameStep_of_overflow hf hw)
  · rw [exec_feed_of_payloadEnd hl hf h hw hk (f := f) rfl, if_pos hv]
    rfl
  · rw [exec_feed_of_payloadEnd hl hf h hw hk (f := f) rfl, if_neg (by simp [hv])]
    rfl
  · rw [exec_feed_of_frameStep hl (h.frameStep_of_append hf hw hk), ← hl]
    rfl

/-! ### The complete frame step -/

theorem FrameMove.state_live {s : State} {r : FrameResult} (h : FrameMove s r) : r.state.live = s.live := by
  cases h <;> rfl

section
variable {s : State} {l b : Bool} {d : BitVec 32}

/-- R92 on a bit in CheckPreamble. -/
theorem frameStepWhole_of_preambleBit (hf : s.frame = .checkPreamble) (h : s.Emits l d b) :
    s.frameStepWhole l d = ((s.frameStep l d).state, (s.frameStep l d).record) := by
  have hsym : classify s.cfg l d ≠ .reset := classify_ne_reset h.not_unrecognised
  have hrow : manStep s.cfg.manInitLevel ⟨s.manPhase, s.manLvl⟩ (classify s.cfg l d) = _ := h.manStep_eq
  simp only [State.frameStepWhole, hf, hsym, hrow, reduceCtorEq, Bool.false_eq_true, if_false, if_true]
  by_cases hu : (b ^^ s.cfg.invertBits) = s.cfg.preambleBit
  · by_cases hp : s.preCount.toNat + 1 = s.cfg.preLen
    · rw [h.frameStep_of_preambleEnd hf hu hp, if_neg (not_not.mpr hu), if_pos hp, ofNat_toNat_succ]
      rfl
    · rw [h.frameStep_of_preambleCount hf hu hp, if_neg (not_not.mpr hu), if_neg hp, ofNat_toNat_succ, ← hf]
      rfl
  · rw [h.frameStep_of_mismatch hf hu, if_pos hu]
    rfl

/-- R92 on a bit in DecodingPayload: short of a frame, `k < MIN_BITS` says that `k` is not `MIN_BITS`. -/
theorem frameStepWhole_of_payloadBit (hf : s.frame = .decodingPayload) (h : s.Emits l d b)
    (hshort : s.accCount.toNat < s.cfg.frameBits) :
    s.frameStepWhole l d = ((s.frameStep l d).state, (s.frameStep l d).record) := by
  have hsym : classify s.cfg l d ≠ .reset := classify_ne_reset h.not_unrecognised
  have hrow : manStep s.cfg.manInitLevel ⟨s.manPhase, s.manLvl⟩ (classify s.cfg l d) = _ := h.manStep_eq
  simp only [State.frameStepWhole, hf, hsym, hrow, reduceCtorEq, Bool.false_eq_true, if_false]
  by_cases hw : s.accCount.toNat = s.cfg.accWidth
  · rw [h.frameStep_of_overflow hf hw, if_pos hw]
    rfl
  · by_cases hk : s.accCount.toNat + 1 = s.cfg.frameBits
    · rw [h.frameStep_of_payloadEnd hf hw hk, if_neg hw, if_neg hk.not_lt, completeFrame_eq]
      exact (apply_ite (Prod.mk s.enterReset) _ _ _).symm
    · rw [h.frameStep_of_append hf hw hk, if_neg hw, if_pos (lt_of_le_of_ne hshort hk), ofNat_toNat_succ, ← hf]
      rfl

end

/-- R92: the one function and the rules R83 to R87 agree where the accumulator is short of a frame, on each kind of
event. -/
theorem frameStepWhole_eq {s : State} (l : Bool) (d : BitVec 32) (hshort : s.accCount.toNat < s.cfg.frameBits) :
    s.frameStepWhole l d = ((s.frameStep l d).state, (s.frameStep l d).record) := by
  by_cases hf : s.frame = .reset
  · by_cases h : s.cfg.IsStartPulse l d
    · rw [frameStep_of_start hf h, State.frameStepWhole, if_pos hf, if_pos ((isStart_iff _ _ _).mpr h)]
      rfl
    · rw [frameStep_of_no_start hf h, State.frameStepWhole, if_pos hf, if_neg (mt (isStart_iff _ _ _).mp h)]
  rcases event_kinds s l d with h | h | h | ⟨b, h⟩
  · rw [frameStep_of_unrecognised hf h, State.frameStepWhole, if_neg hf]
    exact if_pos (classify_of_unrecognised h l)
  · have hviol := (breaks_iff_viol s l d).mp h
    rw [h.frameStep_eq hf, State.frameStepWhole, if_neg hf]
    exact (if_neg (classify_ne_reset h.not_unrecognised)).trans (if_pos hviol)
  · have hsym : classify s.cfg l d ≠ .reset := classify_ne_reset h.not_unrecognised
    have hrow : manStep s.cfg.manInitLevel ⟨s.manPhase, s.manLvl⟩ (classify s.cfg l d) = _ := h.manStep_eq
    rw [h.frameStep_eq hf]
    simp only [State.frameStepWhole, hf, hsym, hrow, Bool.false_eq_true, if_false]
    rfl
  · cases hframe : s.frame with
    | reset => exact absurd hframe hf
    | checkPreamble => exact frameStepWhole_of_preambleBit hframe h
    | decodingPayload => exact frameStepWhole_of_payloadBit hframe h hshort

/-- Settles O43: the frame step keeps `live`, and is R92's function. -/
theorem feedIsTheCompleteFrameStep : Obligations.FeedIsTheCompleteFrameStep := by
  intro s l d hl hshort
  have hlive : (s.frameStep l d).state.live = true := (frameStep_move s l d).state_live.trans hl
  rw [exec_feed_of_live hl, frameStepWhole_eq l d hshort, ← hlive]
  rfl

/-! ### The transition table -/

/-- Only a payload's last bit shows a record (R86, R93). -/
theorem FrameMove.record_eq_none {s : State} {r : FrameResult} (h : FrameMove s r) (hf : s.frame ≠ .decodingPayload) :
    r.record = none := by
  cases h with
  | completed f hd => exact absurd hd hf
  | ignored | started | aborted | suspended | preambleCounted | preambleEnded | appended => rfl

theorem feed_outValid_of_ne_payload {s t : State} {l : Bool} {d : BitVec 32} (h : exec (.feed l d) s = .next t)
    (hf : s.frame ≠ .decodingPayload) : t.out.outValid = false := by
  obtain ⟨-, rfl⟩ := execFeed_next h
  rw [State.drive_out, (frameStep_move s l d).record_eq_none hf]
  rfl

theorem next_unique {i : Instr} {s t u : State} (h : exec i s = .next t) (h' : exec i s = .next u) : t = u := by
  injection h.symm.trans h'

/-- R24: short of the accumulator's width an append loses no bit. -/
theorem append_lt {v k w : Nat} (hv : v < 2 ^ k) (hk : k < w) (u : Bool) : 2 * v + u.toNat < 2 ^ w := by
  have hu := u.toNat_lt
  calc 2 * v + u.toNat < 2 ^ (k + 1) := by rw [pow_succ]; omega
    _ ≤ 2 ^ w := Nat.pow_le_pow_right two_pos hk

/-- Settles O44: each row is one of the statements above on what a FEED answers. Under the invariant the accumulator is
not full, so no bit overflows it and none is lost. -/
theorem frameStateTransitionTable : Obligations.FrameStateTransitionTable := by
  intro s t l d hs hl h
  refine ⟨fun hf => ⟨feed_outValid_of_ne_payload h (by simp [hf]), fun hstart => ?_, fun hstart => ?_⟩,
    fun hf => ⟨feed_outValid_of_ne_payload h (by simp [hf]), fun hbad => ?_, fun hhalf => ?_, fun b hb => ?_⟩,
    fun hf => ⟨fun hbad => ?_, fun hhalf => ?_, fun b hb => ?_⟩⟩
  · rw [next_unique h ((feedInResetAsksOnlyTheStartCondition s l d hl hf).1 hstart)]
  · rw [next_unique h ((feedInResetAsksOnlyTheStartCondition s l d hl hf).2 hstart)]
    exact hf
  · rw [next_unique h (badEventMidFrameReturnsToInit s l d hl (by simp [hf]) hbad)]
    rfl
  · rw [next_unique h (firstHalfSymbolSuspendsTheLineDecoder s l d hl (by simp [hf]) hhalf)]
    exact hf
  · obtain ⟨hmismatch, hlast, hmatch⟩ := preambleBitFollowsItsRule s l b d hl hf hb
    refine ⟨fun hu => ?_, fun hu hp => ?_, fun hu hp => ?_⟩
    · rw [next_unique h (hmismatch hu)]
      rfl
    · rw [next_unique h (hmatch hu hp.ne)]
      exact hf
    · rw [next_unique h (hlast hu hp)]
  · rw [next_unique h (badEventMidFrameReturnsToInit s l d hl (by simp [hf]) hbad)]
    exact ⟨rfl, rfl⟩
  · rw [next_unique h (firstHalfSymbolSuspendsTheLineDecoder s l d hl (by simp [hf]) hhalf)]
    exact ⟨hf, rfl⟩
  · obtain ⟨-, hfits⟩ := admitted_frameBits hs.admitted
    have hroom : s.accCount.toNat < s.cfg.accWidth := hs.count_short.trans_le hfits
    obtain ⟨-, -, -, happend⟩ := payloadBitFollowsItsRule s l b d hl hf hb
    refine ⟨fun hk => ?_, fun hk => ?_⟩
    · rw [next_unique h (happend hroom.ne hk.ne)]
      exact ⟨hf, rfl⟩
    · rw [next_unique h (exec_feed_of_payloadEnd hl hf hb hroom.ne hk rfl),
        Nat.mod_eq_of_lt (append_lt hs.value_fits hroom _)]
      refine ⟨rfl, ?_⟩
      cases hv : validate s.cfg _ <;> rfl

/-- Settles O47: a frame step with a cause ends at `INIT`, whose frame state is Reset; the event is not fed again. -/
theorem endingEventIsNotReexamined : Obligations.EndingEventIsNotReexamined := by
  intro s t l d c h hc
  obtain ⟨-, hframe, -⟩ := feed_atInit_of_endCause h hc
  exact hframe

end Sys2Proof.Machine
end

section
/-!
Whole frames (42_frame_fsm.md R94): runs that show no record before their last step, the run over one bit's events, and
by induction on the bits the run over a preamble and a payload.
-/

namespace Sys2Proof.Machine

/-! ### Runs on waiting FEEDs -/

/-- The command words that carry a list of events (R48). -/
def feedWords (evs : List (Bool × BitVec 32)) : List PortWord := evs.map fun e => encode (.feed e.1 e.2)

theorem feedWords_append (es evs : List (Bool × BitVec 32)) : feedWords (es ++ evs) = feedWords es ++ feedWords evs :=
  List.map_append

/-- Under an admitted configuration a waiting FEED is the next step (R108). -/
theorem step_of_feedWord {s : State} {l : Bool} {d : BitVec 32} {ws : List PortWord} (hc : s.cfg.admitted = true)
    (hin : s.input = encode (.feed l d) :: ws) : step s = exec (.feed l d) { s with input := ws } := by
  have hfetch : s.fetch = .run (.feed l d) { s with input := ws } := by
    simp only [State.fetch, hin, encode, hc, if_true, State.decoded, decode, decodeCommand_feedWord]
  rw [step, hfetch]

/-- `n` steps, at least one, are taken from the first state to the second, and only the last may show a record. -/
inductive RunsTo : Nat → State → State → Prop where
  | last {s t : State} (h : step s = .next t) : RunsTo 1 s t
  | cons {n : Nat} {s t u : State} (h : step s = .next t) (hout : t.out = OutPort.idle) (hrun : RunsTo n t u) :
      RunsTo (n + 1) s u

theorem RunsTo.append {m n : Nat} {s t u : State} (h : RunsTo m s t) (hout : t.out = OutPort.idle)
    (hrun : RunsTo n t u) : RunsTo (m + n) s u := by
  induction h with
  | last hstep =>
    rw [Nat.add_comm]
    exact .cons hstep hout hrun
  | cons hstep hfirst _ ih =>
    rw [Nat.add_right_comm]
    exact .cons hstep hfirst (ih hout hrun)

theorem RunsTo.stateAfter_eq {n : Nat} {s t : State} (h : RunsTo n s t) : stateAfter n s = some t := by
  induction h with
  | last hstep => simp only [stateAfter, hstep]
  | cons hstep _ _ ih => simp only [stateAfter, hstep, ih]

theorem RunsTo.portTrace_eq {n : Nat} {s t : State} (h : RunsTo (n + 1) s t) :
    portTrace (n + 1) s = List.replicate n OutPort.idle ++ [t.out] := by
  induction n generalizing s with
  | zero =>
    cases h with
    | last hstep => simp only [portTrace, hstep, List.replicate_zero, List.nil_append]
    | cons _ _ hrun => cases hrun
  | succ n ih =>
    cases h with
    | cons hstep hout hrun =>
      rw [portTrace, hstep, List.replicate_succ, List.cons_append, ← ih hrun, ← hout]

/-! ### One bit -/

/-- A half-symbol's level can be read off it: every other symbol differs. -/
theorem halfSymbol_level (l k : Bool) :
    (shortSymbol l = shortSymbol k ∨ shortSymbol l = longSymbol k → l = k) ∧
    (longSymbol l = shortSymbol k ∨ longSymbol l = longSymbol k → l = k) ∧
    ¬ (Symbol.reset = shortSymbol k ∨ Symbol.reset = longSymbol k) := by
  revert l k
  decide

/-- The level of a half-symbol is the event's (R61). -/
theorem level_of_classify {c : Cfg} {l k : Bool} {d : BitVec 32}
    (h : classify c l d = shortSymbol k ∨ classify c l d = longSymbol k) : l = k := by
  obtain ⟨hshort, hlong, hreset⟩ := halfSymbol_level l k
  rcases classify_cases c l d with ⟨-, hy⟩ | ⟨-, -, hy⟩ | ⟨-, -, hy⟩ <;> rw [hy] at h
  · exact hshort h
  · exact hlong h
  · exact absurd h hreset

/-- The event of a short half-symbol has its level and a short duration (R61). -/
theorem of_classify_eq_short {c : Cfg} {l k : Bool} {d : BitVec 32} (h : classify c l d = shortSymbol k) :
    l = k ∧ c.IsShort d := by
  obtain rfl := level_of_classify (.inl h)
  exact ⟨rfl, (classify_eq_shortSymbol_iff c l d).mp h⟩

/-- The event of a long half-symbol has its level and a long duration (R61). -/
theorem of_classify_eq_long {c : Cfg} {l k : Bool} {d : BitVec 32} (h : classify c l d = longSymbol k) :
    l = k ∧ c.IsLong d := by
  obtain rfl := level_of_classify (.inr h)
  exact ⟨rfl, (classify_eq_longSymbol_iff c l d).mp h⟩

/-- The events of a bit at line level `l` (R74): two short ones for a bit that keeps the level, a long one for a bit
that changes it. -/
theorem bitEvents_cases {c : Cfg} {l b : Bool} {es : List (Bool × BitVec 32)}
    (h : es.map (fun e => classify c e.1 e.2) = bitSymbols l b) :
    (b = l ∧ ∃ d d', es = [(l, d), (!l, d')] ∧ c.IsShort d ∧ c.IsShort d') ∨
    (b = (!l) ∧ ∃ d, es = [(l, d)] ∧ c.IsLong d) := by
  by_cases hb : b = l
  · rw [bitSymbols, if_pos hb] at h
    obtain ⟨⟨k, d⟩, es', rfl, hfirst, hes'⟩ := List.map_eq_cons_iff.mp h
    obtain ⟨⟨k', d'⟩, hes'', hsecond⟩ := List.map_eq_singleton_iff.mp hes'
    obtain ⟨rfl, hd⟩ := of_classify_eq_short hfirst
    obtain ⟨rfl, hd'⟩ := of_classify_eq_short hsecond
    exact .inl ⟨hb, d, d', by rw [hes''], hd, hd'⟩
  · rw [bitSymbols, if_neg hb] at h
    obtain ⟨⟨k, d⟩, rfl, hlong⟩ := List.map_eq_singleton_iff.mp h
    obtain ⟨rfl, hd⟩ := of_classify_eq_long hlong
    exact .inr ⟨Bool.eq_not_of_ne hb, d, rfl, hd⟩

/-- The state with the line decoder in a given phase and the given words waiting. -/
def State.inPhase (s : State) (p : ManPhase) (ws : List PortWord) : State := { s with manPhase := p, input := ws }

theorem step_inPhase {t : State} {p : ManPhase} {k : Bool} {d : BitVec 32} {ws : List PortWord}
    (hc : t.cfg.admitted = true) :
    step (t.inPhase p (encode (.feed k d) :: ws)) = exec (.feed k d) (t.inPhase p ws) := step_of_feedWord hc rfl

/-- A first half-symbol mid-frame, as the machine's step (R76). -/
theorem step_inPhase_of_firstHalf {t : State} {d : BitVec 32} {ws : List PortWord} (hc : t.cfg.admitted = true)
    (hl : t.live = true) (hf : t.frame ≠ .reset) (hq : t.quiet = t) (hd : t.cfg.IsShort d) :
    step (t.inPhase .awaitingFirstHalf (encode (.feed t.manLvl d) :: ws)) = .next (t.inPhase .haveFirstHalf ws) := by
  have hhalf : (t.inPhase .awaitingFirstHalf ws).TakesHalf t.manLvl d := ⟨hd, rfl, rfl⟩
  have hexec := firstHalfSymbolSuspendsTheLineDecoder (t.inPhase .awaitingFirstHalf ws) _ d hl hf hhalf
  rw [step_inPhase hc, hexec]
  show Host.Outcome.next (t.quiet.inPhase .haveFirstHalf ws) = _
  rw [hq]

/-- Mid-frame, a bit's events run the machine to what its last event's FEED answers, which is the one that emits the
bit; the event before that, if there is one, shows no record. -/
theorem runsTo_of_bitEvents {t u : State} {b : Bool} {es : List (Bool × BitVec 32)} {ws : List PortWord}
    (hc : t.cfg.admitted = true) (hl : t.live = true) (hf : t.frame ≠ .reset) (hq : t.quiet = t)
    (hes : es.map (fun e => classify t.cfg e.1 e.2) = bitSymbols t.manLvl b)
    (hu : ∀ p k d, (t.inPhase p ws).Emits k d b → exec (.feed k d) (t.inPhase p ws) = .next u) :
    RunsTo es.length (t.inPhase .awaitingFirstHalf (feedWords es ++ ws)) u := by
  rcases bitEvents_cases hes with ⟨hb, d, d', rfl, hd, hd'⟩ | ⟨hb, d, rfl, hd⟩
  · have hfirst := step_inPhase_of_firstHalf (ws := encode (.feed (!t.manLvl) d') :: ws) hc hl hf hq hd
    have hout : t.out = OutPort.idle := (congrArg State.out hq).symm
    have hsecond := hu .haveFirstHalf _ d' (.inl ⟨hd', rfl, rfl, hb⟩)
    exact .cons hfirst hout (.last ((step_inPhase hc).trans hsecond))
  · have honly := hu .awaitingFirstHalf _ d (.inr ⟨hd, rfl, rfl, hb⟩)
    exact .last ((step_inPhase hc).trans honly)

/-! ### One bit of the preamble and of the payload -/

/-- In CheckPreamble at line level `l` with the preamble count `n` and no record shown; the rest as in `s`. -/
def State.preambleAt (s : State) (l : Bool) (n : BitVec 16) : State :=
  { s.initial true with frame := .checkPreamble, manLvl := l, preCount := n }

/-- In DecodingPayload at line level `l`, after a preamble of `n` bits, with `k` bits of the value `v` appended and no
record shown; the rest as in `s`. -/
def State.payloadAt (s : State) (l : Bool) (n : BitVec 16) (v : Nat) (k : BitVec 16) : State :=
  { s.initial true with frame := .decodingPayload, manLvl := l, preCount := n, accValue := v, accCount := k }

/-- After a frame with the frame value `f`: at `INIT`, with the given words waiting, and the record shown if `CHECK`
passes. -/
def State.frameEnd (s : State) (f : BitVec s.cfg.frameBits) (ws : List PortWord) : State :=
  { s.initial true with
    input := ws
    out := OutPort.ofRecord (if validate s.cfg f then some (extract s.cfg f) else none) }

theorem State.frameEnd_out_of_valid {s : State} {f : BitVec s.cfg.frameBits} {ws : List PortWord}
    (h : validate s.cfg f = true) : (s.frameEnd f ws).out = OutPort.carrying (extract s.cfg f) :=
  congrArg OutPort.ofRecord (if_pos h)

section
variable {s : State} {l b k : Bool} {p : ManPhase} {d : BitVec 32} {n c : BitVec 16} {v : Nat} {ws : List PortWord}

/-- R85: a preamble bit before the last. -/
theorem exec_preambleAt (h : ((s.preambleAt l n).inPhase p ws).Emits k d b)
    (hu : (b ^^ s.cfg.invertBits) = s.cfg.preambleBit) (hn : n.toNat + 1 ≠ s.cfg.preLen) :
    exec (.feed k d) ((s.preambleAt l n).inPhase p ws) =
      .next ((s.preambleAt b (n + 1#16)).inPhase .awaitingFirstHalf ws) := by
  obtain ⟨-, -, hmatch⟩ := preambleBitFollowsItsRule _ k b d rfl rfl h
  exact hmatch hu hn

/-- R85: the last preamble bit. -/
theorem exec_preambleAt_of_last (h : ((s.preambleAt l n).inPhase p ws).Emits k d b)
    (hu : (b ^^ s.cfg.invertBits) = s.cfg.preambleBit) (hn : n.toNat + 1 = s.cfg.preLen) :
    exec (.feed k d) ((s.preambleAt l n).inPhase p ws) =
      .next ((s.payloadAt b (n + 1#16) 0 0#16).inPhase .awaitingFirstHalf ws) := by
  obtain ⟨-, hlast, -⟩ := preambleBitFollowsItsRule _ k b d rfl rfl h
  exact hlast hu hn

/-- R86: a payload bit before the last; short of the accumulator's width nothing is lost. -/
theorem exec_payloadAt (h : ((s.payloadAt l n v c).inPhase p ws).Emits k d b) (hw : c.toNat < s.cfg.accWidth)
    (hv : v < 2 ^ c.toNat) (hc : c.toNat + 1 ≠ s.cfg.frameBits) :
    exec (.feed k d) ((s.payloadAt l n v c).inPhase p ws) =
      .next ((s.payloadAt b n (2 * v + (b ^^ s.cfg.invertBits).toNat) (c + 1#16)).inPhase .awaitingFirstHalf ws) := by
  obtain ⟨-, -, -, happend⟩ := payloadBitFollowsItsRule _ k b d rfl rfl h
  rw [← Nat.mod_eq_of_lt (append_lt hv hw (b ^^ s.cfg.invertBits))]
  exact happend hw.ne hc

/-- R86: the last payload bit. -/
theorem exec_payloadAt_of_last (h : ((s.payloadAt l n v c).inPhase p ws).Emits k d b) (hw : c.toNat < s.cfg.accWidth)
    (hv : v < 2 ^ c.toNat) (hc : c.toNat + 1 = s.cfg.frameBits) :
    exec (.feed k d) ((s.payloadAt l n v c).inPhase p ws) =
      .next (s.frameEnd (BitVec.ofNat _ (2 * v + (b ^^ s.cfg.invertBits).toNat)) ws) := by
  rw [← Nat.mod_eq_of_lt (append_lt hv hw (b ^^ s.cfg.invertBits))]
  exact exec_feed_of_payloadEnd rfl rfl h hw.ne hc rfl

end

/-! ### The whole frame -/

/-- The first bit of an encoding and the rest of it, as events: the first bit's events come first (R78). -/
theorem bitEvents_append {c : Cfg} {l b : Bool} {bs : List Bool} {evs : List (Bool × BitVec 32)}
    (h : evs.map (fun e => classify c e.1 e.2) = manchesterEncode l (b :: bs)) :
    ∃ es rest, evs = es ++ rest ∧ es.map (fun e => classify c e.1 e.2) = bitSymbols l b ∧
      rest.map (fun e => classify c e.1 e.2) = manchesterEncode b bs := by
  rw [manchesterEncode_cons] at h
  exact List.map_eq_append_iff.mp h

/-- No event encodes no bit. -/
theorem eq_nil_of_map_eq_encode_nil {c : Cfg} {l : Bool} {evs : List (Bool × BitVec 32)}
    (h : evs.map (fun e => classify c e.1 e.2) = manchesterEncode l []) : evs = [] := List.map_eq_nil_iff.mp h

/-- The polarity inversion undoes itself (R75). -/
theorem xor_xor_cancel (u v : Bool) : ((u ^^ v) ^^ v) = u := by
  rw [Bool.xor_assoc, Bool.xor_self, Bool.xor_false]

theorem toNat_add_one {n : BitVec 16} (h : n.toNat + 1 < 2 ^ 16) : (n + 1#16).toNat = n.toNat + 1 := by
  rw [← ofNat_toNat_succ]
  exact Nat.mod_eq_of_lt h

/-- The run over the payload's events, by induction on the bits after the next one: every bit but the last is appended,
and the last ends the frame. -/
theorem runsTo_frameEnd_of_payloadAt {s : State} (hadm : s.cfg.admitted = true) {us : List Bool} {u l : Bool}
    {n c : BitVec 16} {v : Nat} {evs : List (Bool × BitVec 32)} (hv : v < 2 ^ c.toNat)
    (hc : c.toNat + (us.length + 1) = s.cfg.frameBits)
    (hevs : evs.map (fun e => classify s.cfg e.1 e.2) = manchesterEncode l ((u :: us).map (· ^^ s.cfg.invertBits))) :
    RunsTo evs.length ((s.payloadAt l n v c).inPhase .awaitingFirstHalf (feedWords evs))
      (s.frameEnd (BitVec.ofNat _ ((u :: us).foldl (fun v b => 2 * v + b.toNat) v)) []) := by
  obtain ⟨-, hfits⟩ := admitted_frameBits hadm
  have hframe : s.cfg.frameBits < 2 ^ 16 := s.cfg.minBits.isLt
  induction us generalizing u l c v evs with
  | nil =>
    obtain ⟨es, rest, rfl, hes, hrest⟩ := bitEvents_append hevs
    obtain rfl := eq_nil_of_map_eq_encode_nil hrest
    rw [feedWords_append, List.append_nil]
    refine runsTo_of_bitEvents (t := s.payloadAt l n v c) hadm rfl Frame.noConfusion rfl hes fun p k d h => ?_
    rw [exec_payloadAt_of_last h (by omega) hv hc, xor_xor_cancel]
    rfl
  | cons u' us ih =>
    obtain ⟨es, rest, rfl, hes, hrest⟩ := bitEvents_append hevs
    rw [List.length_cons] at hc
    have hw : c.toNat < s.cfg.accWidth := by omega
    have hnext : (c + 1#16).toNat = c.toNat + 1 := toNat_add_one (by omega)
    have hbit := runsTo_of_bitEvents (t := s.payloadAt l n v c) (ws := feedWords rest) hadm rfl Frame.noConfusion rfl
      hes fun p k d h => exec_payloadAt h hw hv (by omega)
    rw [xor_xor_cancel] at hbit
    rw [feedWords_append, List.length_append, List.foldl_cons]
    exact hbit.append rfl (ih (by rw [hnext]; exact append_lt hv (Nat.lt_succ_self _) u) (by omega) hrest)

/-- The run over the events of the preamble and the payload, by induction on the preamble bits after the next one: every
bit but the last is counted, and the last begins the payload. -/
theorem runsTo_frameEnd_of_preambleAt {s : State} (hadm : s.cfg.admitted = true) {payload : List Bool}
    (hlen : payload.length = s.cfg.frameBits) {r : Nat} {l : Bool} {n : BitVec 16} {evs : List (Bool × BitVec 32)}
    (hn : n.toNat + (r + 1) = s.cfg.preLen)
    (hevs : evs.map (fun e => classify s.cfg e.1 e.2) = manchesterEncode l
      ((List.replicate (r + 1) s.cfg.preambleBit ++ payload).map (· ^^ s.cfg.invertBits))) :
    RunsTo evs.length ((s.preambleAt l n).inPhase .awaitingFirstHalf (feedWords evs))
      (s.frameEnd (BitVec.ofNat _ (bitsValue payload)) []) := by
  obtain ⟨hpos, -⟩ := admitted_frameBits hadm
  have hpre := preLen_lt s.cfg
  induction r generalizing l n evs with
  | zero =>
    obtain ⟨es, rest, rfl, hes, hrest⟩ := bitEvents_append hevs
    obtain ⟨u, us, rfl⟩ := List.exists_cons_of_length_pos (hlen ▸ hpos)
    have hbit := runsTo_of_bitEvents (t := s.preambleAt l n) (ws := feedWords rest) hadm rfl Frame.noConfusion rfl hes
      fun p k d h => exec_preambleAt_of_last h (xor_xor_cancel _ _) hn
    rw [feedWords_append, List.length_append]
    exact hbit.append rfl (runsTo_frameEnd_of_payloadAt hadm (by decide) (by simpa using hlen) hrest)
  | succ r ih =>
    obtain ⟨es, rest, rfl, hes, hrest⟩ := bitEvents_append hevs
    have hnext : (n + 1#16).toNat = n.toNat + 1 := toNat_add_one (by omega)
    have hbit := runsTo_of_bitEvents (t := s.preambleAt l n) (ws := feedWords rest) hadm rfl Frame.noConfusion rfl hes
      fun p k d h => exec_preambleAt h (xor_xor_cancel _ _) (by omega)
    rw [feedWords_append, List.length_append]
    exact hbit.append rfl (ih (by omega) hrest)

/-- From Reset, a start pulse and the events of a preamble and a payload run the machine to the frame's end, with no
record shown before (R82 to R92). -/
theorem runsTo_frameEnd {s : State} {d0 : BitVec 32} {payload : List Bool} {evs : List (Bool × BitVec 32)}
    (hadm : s.cfg.admitted = true) (hl : s.live = true) (hf : s.frame = .reset) (hstart : s.cfg.IsStartPulse true d0)
    (hlen : payload.length = s.cfg.frameBits)
    (hevs : evs.map (fun e => classify s.cfg e.1 e.2) = manchesterEncode s.cfg.manInitLevel
      ((List.replicate s.cfg.preLen s.cfg.preambleBit ++ payload).map (· ^^ s.cfg.invertBits)))
    (hin : s.input = encode (.feed true d0) :: feedWords evs) :
    RunsTo (evs.length + 1) s (s.frameEnd (BitVec.ofNat _ (bitsValue payload)) []) := by
  obtain ⟨r, hr⟩ := Nat.exists_eq_succ_of_ne_zero (admitted_preLen_pos hadm).ne'
  rw [hr] at hevs
  obtain ⟨hexec, -⟩ := feedInResetAsksOnlyTheStartCondition { s with input := feedWords evs } true d0 hl hf
  have hrun := runsTo_frameEnd_of_preambleAt (n := 0#16) hadm hlen ((Nat.zero_add _).trans hr.symm) hevs
  exact .cons ((step_of_feedWord hadm hin).trans (hexec hstart)) rfl hrun

/-! ### After a bad pulse -/

/-- At `INIT`, live, with no record shown and the given words waiting; the rest as in `s`. -/
def State.initWith (s : State) (ws : List PortWord) : State := { s.initial true with input := ws }

/-- A bad event mid-frame, as the machine's step (R84). -/
theorem step_of_unrecognised {s : State} {l : Bool} {d : BitVec 32} {ws : List PortWord} (hadm : s.cfg.admitted = true)
    (hl : s.live = true) (hf : s.frame ≠ .reset) (hbad : s.cfg.Unrecognised d)
    (hin : s.input = encode (.feed l d) :: ws) : step s = .next (s.initWith ws) :=
  (step_of_feedWord hadm hin).trans (badEventMidFrameReturnsToInit _ l d hl hf (.inl hbad))

/-- At `INIT`, an event that is no start condition takes its word and changes nothing more (R83, R95). -/
theorem step_initWith_of_no_start {s : State} {l : Bool} {d : BitVec 32} {ws : List PortWord}
    (hadm : s.cfg.admitted = true) (h : ¬ s.cfg.IsStartPulse l d) :
    step (s.initWith (encode (.feed l d) :: ws)) = .next (s.initWith ws) := by
  obtain ⟨-, hexec⟩ := feedInResetAsksOnlyTheStartCondition (s.initWith ws) l d rfl rfl
  exact (step_of_feedWord (s := s.initWith (encode (.feed l d) :: ws)) hadm rfl).trans (hexec h)

/-- Events that are no start condition may come before a run from `INIT`. -/
theorem RunsTo.of_ignored {s u : State} {m : Nat} {ws : List PortWord} {ignored : List (Bool × BitVec 32)}
    (hadm : s.cfg.admitted = true) (hignored : ∀ e ∈ ignored, ¬ s.cfg.IsStartPulse e.1 e.2)
    (hrun : RunsTo m (s.initWith ws) u) : RunsTo (ignored.length + m) (s.initWith (feedWords ignored ++ ws)) u := by
  induction ignored with
  | nil => exact (Nat.zero_add m).symm ▸ hrun
  | cons e es ih =>
    obtain ⟨he, hes⟩ := List.forall_mem_cons.mp hignored
    rw [List.length_cons, Nat.add_right_comm]
    exact .cons (step_initWith_of_no_start hadm he) rfl (ih hes)

/-- Settles O58: the bad pulse leaves `INIT`, the ignored events keep it, and from there the rest is a whole frame's
run. -/
theorem reacquisitionAfterABadPulse : Obligations.ReacquisitionAfterABadPulse := by
  intro s l d d0 payload ignored evs hadm hl hf hbad hignored hstart hlen hevs hin hvalid
  have hbadStep := step_of_unrecognised hadm hl hf hbad hin
  have hframe : RunsTo (evs.length + 1) (s.initWith (encode (.feed true d0) :: feedWords evs))
      (s.frameEnd (BitVec.ofNat _ (bitsValue payload)) []) :=
    runsTo_frameEnd (s := s.initWith _) hadm rfl rfl hstart hlen hevs rfl
  have hrun := RunsTo.cons hbadStep rfl (hframe.of_ignored hadm hignored)
  constructor
  · rw [(RunsTo.last hbadStep).stateAfter_eq, hin]
    rfl
  · rw [← State.frameEnd_out_of_valid (ws := []) hvalid]
    exact hrun.portTrace_eq

end Sys2Proof.Machine
end

section
/-!
The forms of `CHECK` and `BATTERY` as functions of the frame value (43_validator_extractor.md R97 to R99, R104, R105):
the lists that stand for them, what a flipped bit does to each form of `CHECK`, and that admission is the law of R98.
-/

namespace Sys2Proof.Machine

/-! ### Frame values as a list -/

/-- The frame values of a predicate as numbers, as the model's lists hold them (log entry 3). -/
def valuesWhere {w : Nat} (p : BitVec w → Bool) : List Nat := (List.range (2 ^ w)).filter fun a => p (BitVec.ofNat w a)

theorem mem_valuesWhere {w : Nat} {p : BitVec w → Bool} {f : BitVec w} : f.toNat ∈ valuesWhere p ↔ p f = true := by
  rw [valuesWhere, List.mem_filter, List.mem_range, BitVec.ofNat_toNat, BitVec.setWidth_eq]
  exact and_iff_right f.isLt

/-! ### A flipped bit -/

/-- Flipping one bit of a frame value is flipping it in its number (R98). -/
theorem toNat_xor_twoPow {w i : Nat} (f : BitVec w) (hi : i < w) :
    (f ^^^ BitVec.twoPow w i).toNat = f.toNat ^^^ 2 ^ i := by
  rw [BitVec.toNat_xor, BitVec.toNat_twoPow_of_lt hi]

/-- Flipping a predicate at one number below `n` changes by one how many numbers below `n` meet it, up to parity. -/
theorem countP_range_xor_parity (p : Nat → Bool) (i n : Nat) :
    ((List.range n).countP fun j => p j ^^ decide (i = j)) % 2 =
      ((List.range n).countP p + if i < n then 1 else 0) % 2 := by
  induction n with
  | zero => rfl
  | succ n ih =>
    simp only [List.range_succ, List.countP_append, List.countP_singleton]
    rcases Nat.lt_trichotomy i n with hi | rfl | hi
    · simp only [hi, hi.ne, Nat.lt_succ_of_lt hi, if_true, decide_false, Bool.xor_false] at ih ⊢
      omega
    · simp only [Nat.lt_irrefl, Nat.lt_succ_self, if_true, if_false, decide_true, Bool.xor_true] at ih ⊢
      cases p i <;> simp <;> omega
    · simp only [hi.ne', Nat.not_lt_of_lt hi, show ¬ i < n + 1 by omega, if_false, decide_false, Bool.xor_false] at ih ⊢
      omega

/-- One flipped bit changes the parity of the one bits (R105). -/
theorem popcount_xor_twoPow_parity {w i : Nat} (f : BitVec w) (hi : i < w) :
    popcount (f ^^^ BitVec.twoPow w i) % 2 = (popcount f + 1) % 2 := by
  have h := countP_range_xor_parity f.getLsbD i w
  rw [if_pos hi] at h
  simpa only [popcount, BitVec.getLsbD_xor, BitVec.getLsbD_twoPow, hi, decide_true, Bool.true_and] using h

/-! ### The forms of `CHECK` -/

/-- What is kept of a predicate: the frame values that it accepts and of which it accepts none one bit away. -/
theorem lawfulPart_eq_true_iff {w : Nat} {raw : BitVec w → Bool} {f : BitVec w} :
    lawfulPart raw f = true ↔ raw f = true ∧ ∀ i < w, raw (f ^^^ BitVec.twoPow w i) = false := by
  simp only [lawfulPart, Bool.and_eq_true, List.all_eq_true, List.mem_range, Bool.not_eq_true']

/-- What is kept of any predicate meets the law of R98. -/
theorem lawfulPart_xor_twoPow {w i : Nat} {raw : BitVec w → Bool} {f : BitVec w} (h : lawfulPart raw f = true)
    (hi : i < w) : lawfulPart raw (f ^^^ BitVec.twoPow w i) = false := by
  obtain ⟨-, hflip⟩ := lawfulPart_eq_true_iff.mp h
  rw [lawfulPart, hflip i hi, Bool.false_and]

/-- A predicate that meets the law of R98 is kept whole. -/
theorem lawfulPart_eq_self {w : Nat} {raw : BitVec w → Bool}
    (h : ∀ f, raw f = true → ∀ i < w, raw (f ^^^ BitVec.twoPow w i) = false) : lawfulPart raw = raw := by
  funext f
  rw [Bool.eq_iff_iff, lawfulPart_eq_true_iff]
  exact and_iff_left_of_imp (h f)

/-- `CHECK_ODD` meets the law of R98 (R105). -/
theorem popcount_odd_xor_twoPow {w i : Nat} {f : BitVec w} (h : (popcount f % 2 == 1) = true) (hi : i < w) :
    (popcount (f ^^^ BitVec.twoPow w i) % 2 == 1) = false := by
  rw [beq_iff_eq] at h
  rw [popcount_xor_twoPow_parity f hi, beq_eq_false_iff_ne]
  omega

/-- A listed predicate meets the law of R98 exactly when no listed frame value is one bit away from another: numbers too
large for a frame value do not count. -/
theorem accepts_law_iff {w : Nat} {frames : List Nat} :
    (frames.all fun a => decide (2 ^ w ≤ a) || (List.range w).all fun i => !frames.contains (a ^^^ 2 ^ i)) = true ↔
      ∀ f : BitVec w, frames.contains f.toNat = true →
        ∀ i < w, frames.contains (f ^^^ BitVec.twoPow w i).toNat = false := by
  simp only [List.all_eq_true, Bool.or_eq_true, decide_eq_true_eq, List.mem_range, Bool.not_eq_true',
    List.contains_iff_mem]
  constructor
  · intro h f hf i hi
    rw [toNat_xor_twoPow f hi]
    exact (h _ hf).resolve_left f.isLt.not_ge i hi
  · intro h a ha
    refine or_iff_not_imp_left.mpr fun hsmall i hi => ?_
    have hvalue : (BitVec.ofNat w a).toNat = a := Nat.mod_eq_of_lt (not_le.mp hsmall)
    have hflip := h (BitVec.ofNat w a) (hvalue.symm ▸ ha) i hi
    rwa [toNat_xor_twoPow _ hi, hvalue] at hflip

/-- The decided law is the law of R98, form by form. -/
theorem checkLawOk_iff (c : Cfg) : c.checkLawOk = true ↔ c.CheckLaw := by
  unfold Cfg.checkLawOk Cfg.CheckLaw Cfg.check
  cases c.checkSel with
  | openParam => exact iff_of_true rfl fun f h i hi => lawfulPart_xor_twoPow h hi
  | oddParity => exact iff_of_true rfl fun f h i hi => popcount_odd_xor_twoPow h hi
  | alwaysAccept =>
    rw [beq_iff_eq]
    constructor
    · intro h0 f _ i hi
      omega
    · intro h
      by_contra h0
      exact Bool.noConfusion (h 0 rfl 0 (Nat.pos_of_ne_zero h0))
  | accepts frames => exact accepts_law_iff

/-- R135 item 8: an admitted `CHECK` meets the law of R98. -/
theorem admitted_checkLaw {c : Cfg} (h : c.admitted = true) : c.CheckLaw := by
  simp only [Cfg.admitted, Bool.and_eq_true] at h
  obtain ⟨-, hlaw⟩ := h
  exact (checkLawOk_iff c).mp hlaw

/-- Settles O19: the law is one of the items of admission. -/
theorem admittedCheckDetectsSingleBitErrors : Obligations.AdmittedCheckDetectsSingleBitErrors :=
  fun _ f hc => admitted_checkLaw hc f

/-- Settles O20: of the frame values 0 and 1 at most one validates. -/
theorem admittedCheckIsNotAlwaysTrue : Obligations.AdmittedCheckIsNotAlwaysTrue := by
  intro c hc
  obtain ⟨hpos, -⟩ := admitted_frameBits hc
  cases hzero : validate c 0 with
  | false => exact ⟨0, hzero⟩
  | true => exact ⟨_, admittedCheckDetectsSingleBitErrors c 0 hc hzero 0 hpos⟩

/-- Settles O21: the list of what the predicate accepts, and the two facts on what is kept of a predicate. -/
theorem checkFormsReachEveryLawfulPredicate : Obligations.CheckFormsReachEveryLawfulPredicate := by
  refine ⟨fun c chk => ⟨valuesWhere chk, fun f => ?_⟩, fun w raw f h i hi => lawfulPart_xor_twoPow h hi,
    fun w raw => lawfulPart_eq_self⟩
  rw [Bool.eq_iff_iff, ← mem_valuesWhere]
  exact List.contains_iff_mem

/-! ### The battery -/

/-- `BATTERY` by its two lists (R104, log entry 3). -/
theorem batteryOf_cases (c : Cfg) (f : BitVec c.frameBits) :
    (f.toNat ∈ c.batteryTable.okFrames ∧ batteryOf c f = .ok) ∨
    (f.toNat ∉ c.batteryTable.okFrames ∧ f.toNat ∈ c.batteryTable.lowFrames ∧ batteryOf c f = .low) ∨
    (f.toNat ∉ c.batteryTable.okFrames ∧ f.toNat ∉ c.batteryTable.lowFrames ∧ batteryOf c f = .unknown) := by
  simp only [batteryOf, List.contains_iff_mem]
  by_cases hok : f.toNat ∈ c.batteryTable.okFrames
  · exact .inl ⟨hok, if_pos hok⟩
  · rw [if_neg hok]
    by_cases hlow : f.toNat ∈ c.batteryTable.lowFrames
    · exact .inr (.inl ⟨hok, hlow, if_pos hlow⟩)
    · exact .inr (.inr ⟨hok, hlow, if_neg hlow⟩)

/-- The lists that hold a given function of the frame value (log entry 3). -/
def batteryTableOf {w : Nat} (bat : BitVec w → Battery) : BatteryTable :=
  ⟨valuesWhere fun f => bat f == .ok, valuesWhere fun f => bat f == .low⟩

theorem mem_batteryTableOf_okFrames {w : Nat} {bat : BitVec w → Battery} {f : BitVec w} :
    f.toNat ∈ (batteryTableOf bat).okFrames ↔ bat f = .ok := by
  rw [batteryTableOf, mem_valuesWhere, beq_iff_eq]

theorem mem_batteryTableOf_lowFrames {w : Nat} {bat : BitVec w → Battery} {f : BitVec w} :
    f.toNat ∈ (batteryTableOf bat).lowFrames ↔ bat f = .low := by
  rw [batteryTableOf, mem_valuesWhere, beq_iff_eq]

/-- `BATTERY` of the lists that hold a function is that function. -/
theorem batteryOf_batteryTableOf (c : Cfg) (bat : BitVec c.frameBits → Battery) (f : BitVec c.frameBits) :
    batteryOf { c with batteryTable := batteryTableOf bat } f = bat f := by
  have hok := mem_batteryTableOf_okFrames (bat := bat) (f := f)
  have hlow := mem_batteryTableOf_lowFrames (bat := bat) (f := f)
  rcases batteryOf_cases { c with batteryTable := batteryTableOf bat } f with ⟨h, hr⟩ | ⟨-, h, hr⟩ | ⟨h, h', hr⟩
  · rw [hr, hok.mp h]
  · rw [hr, hlow.mp h]
  · rw [hr]
    cases hb : bat f with
    | ok => exact absurd (hok.mpr hb) h
    | low => exact absurd (hlow.mpr hb) h'
    | unknown => rfl

/-- Settles O50: the record's battery is `BATTERY`'s, which the two lists decide, and the lists can be read off a
function. -/
theorem batteryTablesReachEveryFunction : Obligations.BatteryTablesReachEveryFunction := by
  refine ⟨fun c f => ?_, fun c bat => ⟨batteryTableOf bat, batteryOf_batteryTableOf c bat⟩⟩
  show (_ → batteryOf c f = .ok) ∧ (_ → _ → batteryOf c f = .low) ∧ (_ → _ → batteryOf c f = .unknown)
  rcases batteryOf_cases c f with ⟨hok, hr⟩ | ⟨hok, hlow, hr⟩ | ⟨hok, hlow, hr⟩ <;> rw [hr]
  · exact ⟨fun _ => rfl, absurd hok, absurd hok⟩
  · exact ⟨(absurd · hok), fun _ _ => rfl, fun _ => absurd hlow⟩
  · exact ⟨(absurd · hok), fun _ => (absurd · hlow), fun _ _ => rfl⟩

end Sys2Proof.Machine
end

section
/-!
The record of a frame (43_validator_extractor.md R101, R102, R106): its fields under an admitted configuration and under
`SAMPLE`, and that a complete frame shows it.
-/

namespace Sys2Proof.Machine

/-- Settles O48: the port's fields are wide enough under admission, and the frame value fits the accumulator. -/
theorem extractedFieldsAreTheFrameValuesFields : Obligations.ExtractedFieldsAreTheFrameValuesFields := by
  intro c f hc
  obtain ⟨-, hfits⟩ := admitted_frameBits hc
  refine ⟨(extract_sensorId_toNat hc f).trans (fieldOf_eq _ _ _), (extract_pressure_toNat hc f).trans (fieldOf_eq _ _ _),
    ?_, rfl, rfl, f.isLt.trans_le (Nat.pow_le_pow_right two_pos hfits), rfl⟩
  rw [extract_temperature_toInt hc f, temperatureOf, fieldOf_eq]

/-- Settles O51: the general fields at `SAMPLE`'s shifts and widths; its battery lists are empty. -/
theorem sampleRecordFields : Obligations.SampleRecordFields := by
  intro f
  obtain ⟨hid, hpressure, htemp, -⟩ := extractedFieldsAreTheFrameValuesFields Cfg.sample f sample_admitted
  refine ⟨hid, hpressure, htemp.trans ?_, rfl, rfl⟩
  show ((f.toNat / 2 ^ 0 % 2 ^ 8 : Nat) : Int) - 50 = _
  rw [pow_zero, Nat.div_one]

/-- Settles O57: the whole frame's run ends where the statement says, with the record on the port if `CHECK` passes. -/
theorem completeFrameYieldsItsRecord : Obligations.CompleteFrameYieldsItsRecord := by
  intro s d0 payload evs hadm hl hf hstart hlen hevs hin
  have hrun := runsTo_frameEnd hadm hl hf hstart hlen hevs hin
  exact ⟨hrun.portTrace_eq, hrun.stateAfter_eq⟩

end Sys2Proof.Machine
end

section
/-!
The commands of an instance (44_instance_commands.md R108 to R114, R117): the step on a command word, what each command
answers on a live instance and without one, and which FEED shows a record.
-/

namespace Sys2Proof.Machine

/-! ### The step on a command word -/

section
variable {s : State} {w : BitVec 35} {rest : List PortWord}

/-- Without an admitted configuration a command word is not decoded at all (R108). -/
theorem fetch_of_badConfig (hin : s.input = .cmd w :: rest) (hadm : s.cfg.admitted = false) :
    s.fetch = .refuse .badConfig := by
  simp only [State.fetch, hin, hadm, Bool.false_eq_true, if_false]

/-- Under an admitted configuration a command word is taken and decoded (R108). -/
theorem fetch_of_command (hin : s.input = .cmd w :: rest) (hadm : s.cfg.admitted = true) :
    s.fetch = State.decoded { s with input := rest } (.cmd w) := by
  simp only [State.fetch, hin, hadm, if_true]

end

/-- Settles O7: each clause is one answer of the fetch. -/
theorem stepRunsTheDecodedCommand : Obligations.StepRunsTheDecodedCommand := by
  intro s w rest hin
  refine ⟨fun hadm => ?_, fun hadm => ⟨fun i hdec => ?_, fun hdec => ?_⟩⟩
  · rw [step, fetch_of_badConfig hin hadm]
  · rw [step, fetch_of_command hin hadm, State.decoded, hdec]
  · rw [step, fetch_of_command hin hadm, State.decoded, hdec]
    rfl

/-! ### What the commands answer -/

/-- FREE on a live instance clears `live` and shows no record (R112). -/
theorem exec_free_of_live {s : State} (hl : s.live = true) : exec .free s = .next { s.quiet with live := false } :=
  if_pos hl

/-- Settles O36: FEED leaves the instance allocated (R109), and R133 refuses it without one. -/
theorem feedCompletesOnEveryLiveInstance : Obligations.FeedCompletesOnEveryLiveInstance := by
  refine fun s l d => ⟨fun hl => ⟨_, exec_feed_of_live hl, rfl⟩, fun hl => ?_⟩
  obtain ⟨-, -, -, -, -, hdead⟩ := resetTableHolds
  obtain ⟨hrefused, -⟩ := hdead s l d hl
  exact hrefused

/-- On a live instance every instruction has a next state (R117). -/
theorem exec_completes_of_live {s : State} (hl : s.live = true) (i : Instr) : ∃ t, exec i s = .next t := by
  cases i with
  | feed l d => exact ⟨_, exec_feed_of_live hl⟩
  | reset => exact ⟨_, exec_reset_of_live hl⟩
  | alloc => exact ⟨_, exec_alloc s⟩
  | free => exact ⟨_, exec_free_of_live hl⟩
  | shortLow => exact ⟨_, exec_symbolInstr .shortLow s⟩
  | shortHigh => exact ⟨_, exec_symbolInstr .shortHigh s⟩
  | longLow => exact ⟨_, exec_symbolInstr .longLow s⟩
  | longHigh => exact ⟨_, exec_symbolInstr .longHigh s⟩
  | resetSymbol => exact ⟨_, exec_symbolInstr .reset s⟩

/-- Settles O10: the step runs the decoded command on the state with the word taken, and taking it leaves `live` as it
was. -/
theorem admittedCommandsOnALiveInstanceComplete : Obligations.AdmittedCommandsOnALiveInstanceComplete := by
  intro s w rest i hin hadm hl hdec
  obtain ⟨hrun, -⟩ := (stepRunsTheDecodedCommand s w rest hin).2 hadm
  rw [hrun i hdec]
  exact exec_completes_of_live (s := { s with input := rest }) hl i

/-- Settles O52: RESET has one word, and without an instance it is refused (R133). -/
theorem resetForcesTheInitialState : Obligations.ResetForcesTheInitialState := by
  obtain ⟨-, hword, -⟩ := reservedOperandBitsAreRefused
  refine ⟨(hword _).mpr rfl, fun s => ⟨exec_reset_of_live, fun hl => ?_⟩⟩
  obtain ⟨-, -, -, -, -, hdead⟩ := resetTableHolds
  obtain ⟨-, hrefused, -⟩ := hdead s false 0#32 hl
  exact hrefused

/-- Settles O53: ALLOC has one word and asks nothing of the state. -/
theorem allocBeginsAnInstanceAtInit : Obligations.AllocBeginsAnInstanceAtInit := by
  obtain ⟨-, -, hword, -⟩ := reservedOperandBitsAreRefused
  exact ⟨(hword _).mpr rfl, exec_alloc⟩

/-- Settles O54: FREE has one word, and its two answers go by `live`. -/
theorem freeEndsTheInstance : Obligations.FreeEndsTheInstance := by
  obtain ⟨-, -, -, hword, -⟩ := reservedOperandBitsAreRefused
  exact ⟨(hword _).mpr rfl, fun s => ⟨exec_free_of_live, exec_free_of_not_live⟩⟩

/-! ### Which step shows a record -/

section
variable {s : State} {l : Bool} {d : BitVec 32} {r : Record}

/-- The end of a frame shows a record only of a frame value that `CHECK` accepts (R86). -/
theorem completeFrame_of_record {f : BitVec s.cfg.frameBits} (h : (s.completeFrame f).record = some r) :
    validate s.cfg f = true ∧ s.completeFrame f = ⟨s.enterReset, some (extract s.cfg f), some .frameComplete⟩ := by
  rcases completeFrame_cases s f with hvalid | ⟨-, hc⟩
  · exact hvalid
  · rw [hc] at h
    cases h

/-- In DecodingPayload an event shows a record only if it emits the bit that completes a frame (R86, R93): every other
event aborts, is suspended, or is appended. -/
theorem payload_event_of_record (hf : s.frame = .decodingPayload) (h : (s.frameStep l d).record = some r) :
    s.accCount.toNat + 1 = s.cfg.frameBits ∧ ∃ f, s.frameStep l d = s.completeFrame f := by
  have hne : s.frame ≠ .reset := by simp [hf]
  rcases event_kinds s l d with hbad | hbad | hhalf | ⟨b, hb⟩
  · rw [frameStep_of_unrecognised hne hbad] at h
    cases h
  · rw [hbad.frameStep_eq hne] at h
    cases h
  · rw [hhalf.frameStep_eq hne] at h
    cases h
  · by_cases hw : s.accCount.toNat = s.cfg.accWidth
    · rw [hb.frameStep_of_overflow hf hw] at h
      cases h
    · by_cases hk : s.accCount.toNat + 1 = s.cfg.frameBits
      · exact ⟨hk, _, hb.frameStep_of_payloadEnd hf hw hk⟩
      · rw [hb.frameStep_of_append hf hw hk] at h
        cases h

/-- A frame step with a record is the completion of a frame that `CHECK` accepts (R114). -/
theorem frameStep_of_record (h : (s.frameStep l d).record = some r) :
    s.frame = .decodingPayload ∧ s.accCount.toNat + 1 = s.cfg.frameBits ∧
      ∃ f, validate s.cfg f = true ∧ s.frameStep l d = ⟨s.enterReset, some (extract s.cfg f), some .frameComplete⟩ := by
  by_cases hf : s.frame = .decodingPayload
  · obtain ⟨hk, f, hstep⟩ := payload_event_of_record hf h
    obtain ⟨hv, hc⟩ := completeFrame_of_record (hstep ▸ h)
    exact ⟨hf, hk, f, hv, hstep.trans hc⟩
  · cases h.symm.trans ((frameStep_move s l d).record_eq_none hf)

end

/-- `out_valid` is 1 exactly when the step drives a record (R54, R55). -/
theorem OutPort.ofRecord_outValid_iff (r : Option Record) :
    (OutPort.ofRecord r).outValid = true ↔ ∃ x, r = some x := by
  cases r <;> simp

/-- Settles O45: of the outcomes of an instruction only FEED's drives the port with more than no record, and its record
is the frame step's. -/
theorem onlyACompletingFeedDrivesTheRecord : Obligations.OnlyACompletingFeedDrivesTheRecord := by
  intro i s t h hout
  cases exec_taken h with
  | feed l d hl =>
    obtain ⟨r, hr⟩ := (OutPort.ofRecord_outValid_iff _).mp hout
    obtain ⟨hf, hk, f, hv, hstep⟩ := frameStep_of_record hr
    rw [hstep]
    exact ⟨l, d, f, rfl, hl, hf, hk, hv, rfl, s.enterReset_atInit⟩
  | reset | alloc | free | symbol => cases hout

end Sys2Proof.Machine
end

section
/-!
The ways a frame attempt ends (60_exceptions.md R118, R120, R132): the rows of the cause table as conditions on the state
and the event, what a row makes of the frame step, that without a row the attempt goes on, and the idle step.
-/

namespace Sys2Proof.Machine

/-! ### The idle step -/

/-- With no word waiting the fetch is idle (R132). -/
theorem fetch_of_idle {s : State} (hin : s.input = []) : s.fetch = .idle (s.drive none) := by
  rw [State.fetch, hin]

/-- Settles O9: driving no record is all that the idle step does. -/
theorem idleStepHoldsTheState : Obligations.IdleStepHoldsTheState := by
  intro s hin
  rw [step, fetch_of_idle hin]
  rfl

/-! ### The rows of the cause table -/

/-- The event emits the last bit of a frame, and `CHECK` answers `ok` on the frame's value (R86). -/
def State.EndsFrame (s : State) (l : Bool) (d : BitVec 32) (ok : Bool) : Prop :=
  s.frame = .decodingPayload ∧ s.accCount.toNat ≠ s.cfg.accWidth ∧ s.accCount.toNat + 1 = s.cfg.frameBits ∧
    ∃ b, s.Emits l d b ∧ validate s.cfg (BitVec.ofNat s.cfg.frameBits
      ((2 * s.accValue + (b ^^ s.cfg.invertBits).toNat) % 2 ^ s.cfg.accWidth)) = ok

/-- The frame state and the condition of a cause's row in R118's table, for a FEED; no FEED is an explicit reset. -/
def State.CauseRow (s : State) (l : Bool) (d : BitVec 32) : Cause → Prop
  | .frameComplete => s.EndsFrame l d true
  | .timingMismatch => s.frame ≠ .reset ∧ s.cfg.Unrecognised d
  | .illegalTransition => s.frame ≠ .reset ∧ s.Breaks l d
  | .preambleMismatch => s.frame = .checkPreamble ∧ ∃ b, s.Emits l d b ∧ (b ^^ s.cfg.invertBits) ≠ s.cfg.preambleBit
  | .overflow => s.frame = .decodingPayload ∧ s.accCount.toNat = s.cfg.accWidth ∧ ∃ b, s.Emits l d b
  | .checkFail => s.EndsFrame l d false
  | .explicitReset => False

section
variable {s : State} {l : Bool} {d : BitVec 32} {c : Cause}

/-- R86: the frame step that ends a frame, by what `CHECK` answers. -/
theorem State.EndsFrame.frameStep_eq {ok : Bool} (h : s.EndsFrame l d ok) :
    ∃ f, s.frameStep l d = ⟨s.enterReset, if ok then some (extract s.cfg f) else none,
      some (if ok then .frameComplete else .checkFail)⟩ := by
  obtain ⟨hf, hw, hk, b, hb, hv⟩ := h
  exact ⟨_, by rw [hb.frameStep_of_payloadEnd hf hw hk, completeFrame_eq, hv]⟩

/-- A row's condition makes the frame step end the attempt with the row's cause, at `INIT`, and with a record exactly in
FrameComplete's row (R118). -/
theorem State.CauseRow.frameStep_eq (h : s.CauseRow l d c) :
    ∃ r, s.frameStep l d = ⟨s.enterReset, r, some c⟩ ∧ ((OutPort.ofRecord r).outValid = true ↔ c = .frameComplete) := by
  cases c with
  | frameComplete | checkFail =>
    obtain ⟨f, hstep⟩ := State.EndsFrame.frameStep_eq h
    exact ⟨_, hstep, by simp⟩
  | timingMismatch =>
    obtain ⟨hf, hd⟩ := h
    exact ⟨none, frameStep_of_unrecognised hf hd, by simp⟩
  | illegalTransition =>
    obtain ⟨hf, hd⟩ := h
    exact ⟨none, hd.frameStep_eq hf, by simp⟩
  | preambleMismatch =>
    obtain ⟨hf, b, hb, hu⟩ := h
    exact ⟨none, hb.frameStep_of_mismatch hf hu, by simp⟩
  | overflow =>
    obtain ⟨hf, hw, b, hb⟩ := h
    exact ⟨none, hb.frameStep_of_overflow hf hw, by simp⟩
  | explicitReset => exact h.elim

variable (s l d)

/-- R120: in the order of the checks, an event meets the condition of a row, or the attempt goes on without a cause and
without a record. -/
theorem causeRow_or_goes_on :
    (∃ c, s.CauseRow l d c) ∨ ∃ u, s.frameStep l d = ⟨u, none, none⟩ := by
  by_cases hf : s.frame = .reset
  · by_cases hstart : s.cfg.IsStartPulse l d
    · exact .inr ⟨_, frameStep_of_start hf hstart⟩
    · exact .inr ⟨_, frameStep_of_no_start hf hstart⟩
  rcases event_kinds s l d with hd | hbreak | hhalf | ⟨b, hb⟩
  · exact .inl ⟨.timingMismatch, hf, hd⟩
  · exact .inl ⟨.illegalTransition, hf, hbreak⟩
  · exact .inr ⟨_, hhalf.frameStep_eq hf⟩
  cases hframe : s.frame with
  | reset => exact absurd hframe hf
  | checkPreamble =>
    by_cases hu : (b ^^ s.cfg.invertBits) = s.cfg.preambleBit
    · by_cases hp : s.preCount.toNat + 1 = s.cfg.preLen
      · exact .inr ⟨_, hb.frameStep_of_preambleEnd hframe hu hp⟩
      · exact .inr ⟨_, hb.frameStep_of_preambleCount hframe hu hp⟩
    · exact .inl ⟨.preambleMismatch, hframe, b, hb, hu⟩
  | decodingPayload =>
    by_cases hw : s.accCount.toNat = s.cfg.accWidth
    · exact .inl ⟨.overflow, hframe, hw, b, hb⟩
    by_cases hk : s.accCount.toNat + 1 = s.cfg.frameBits
    · cases hv : validate s.cfg (BitVec.ofNat s.cfg.frameBits
        ((2 * s.accValue + (b ^^ s.cfg.invertBits).toNat) % 2 ^ s.cfg.accWidth)) with
      | false => exact .inl ⟨.checkFail, hframe, hw, hk, b, hb, hv⟩
      | true => exact .inl ⟨.frameComplete, hframe, hw, hk, b, hb, hv⟩
    · exact .inr ⟨_, hb.frameStep_of_append hframe hw hk⟩

/-- The frame step's cause is the one whose row's condition holds (R118). -/
theorem frameStep_cause_iff (c : Cause) : (s.frameStep l d).cause = some c ↔ s.CauseRow l d c := by
  refine ⟨fun hc => ?_, fun hrow => ?_⟩
  · rcases causeRow_or_goes_on s l d with ⟨c', hrow⟩ | ⟨u, hstep⟩
    · obtain ⟨r, hstep, -⟩ := hrow.frameStep_eq
      obtain rfl : c' = c := by simpa [hstep] using hc
      exact hrow
    · rw [hstep] at hc
      cases hc
  · obtain ⟨r, hstep, -⟩ := hrow.frameStep_eq
    rw [hstep]

end

/-! ### The causes of the commands -/

theorem endCause_feed_of_live {s : State} (hl : s.live = true) (l : Bool) (d : BitVec 32) :
    endCause (.feed l d) s = (s.frameStep l d).cause := if_pos hl

/-- R25: under the invariant the accumulator is short of a frame, which fits it, so Overflow's row does not arise. -/
theorem State.Inv.not_overflow {s : State} (h : s.Inv) (l : Bool) (d : BitVec 32) : ¬ s.CauseRow l d .overflow := by
  rintro ⟨-, hw, -⟩
  obtain ⟨-, hfits⟩ := admitted_frameBits h.admitted
  exact (h.count_short.trans_le hfits).ne hw

/-- R110 to R112, R118: the three commands that end an attempt explicitly, and what each leaves. -/
theorem explicitReset_of_command (s t : State) :
    (exec .reset s = .next t → endCause .reset s = some .explicitReset ∧ t = s.initial true) ∧
    (exec .alloc s = .next t → endCause .alloc s = some .explicitReset ∧ t = s.initial true) ∧
    (exec .free s = .next t → endCause .free s = some .explicitReset ∧ t = { s.quiet with live := false }) := by
  refine ⟨fun h => ?_, fun h => ⟨rfl, next_unique h (exec_alloc s)⟩, fun h => ?_⟩
  · obtain ⟨hl, rfl⟩ := execReset_next h
    exact ⟨if_pos hl, rfl⟩
  · obtain ⟨hl, rfl⟩ := execFree_next h
    exact ⟨if_pos hl, rfl⟩

/-- Settles O46: a taken FEED ran on a live instance, so that its cause is the frame step's, and each clause on when a
cause arises is that cause's row. -/
theorem causesLeaveInitAndOnlyCompletionARecord : Obligations.CausesLeaveInitAndOnlyCompletionARecord := by
  refine ⟨fun s t l d h => ?_, explicitReset_of_command, rfl, rfl, rfl, rfl, rfl, rfl, rfl⟩
  obtain ⟨hl, rfl⟩ := execFeed_next h
  have hrow (c : Cause) : endCause (.feed l d) s = some c ↔ s.CauseRow l d c := by
    rw [endCause_feed_of_live hl]
    exact frameStep_cause_iff s l d c
  refine ⟨fun c hc => ?_, fun hnone => ?_, hrow .timingMismatch, hrow .illegalTransition, hrow .preambleMismatch,
    hrow .overflow, fun ok => ?_, mt (hrow .explicitReset).mp id, fun hs => mt (hrow .overflow).mp (hs.not_overflow l d)⟩
  · obtain ⟨r, hstep, hrecord⟩ := ((hrow c).mp hc).frameStep_eq
    rw [hstep]
    exact ⟨rfl, hrecord⟩
  · rcases causeRow_or_goes_on s l d with ⟨c, hc⟩ | ⟨u, hstep⟩
    · cases hnone.symm.trans ((hrow c).mpr hc)
    · rw [hstep]
      rfl
  · cases ok with
    | false => exact hrow .checkFail
    | true => exact hrow .frameComplete

end Sys2Proof.Machine
end

section
/-!
Admission (70_reset_and_hazards.md R135): its items as the model decides them and as the rule states them, and what it
asks of `SAMPLE` with given values for the two open parameters.
-/

namespace Sys2Proof.Machine

/-- R135 item 3: the open parameter meets both bounds, and a given one meets the upper bound by its width. -/
theorem preLenOk_iff (c : Cfg) : c.preLenOk = true ↔ 1 ≤ c.preLen ∧ c.preLen ≤ 65535 := by
  unfold Cfg.preLenOk Cfg.preLen
  cases c.preambleLen with
  | openParam => exact iff_of_true rfl ⟨Nat.succ_pos _, Config.preambleLenLessOne.isLt⟩
  | given n => exact decide_eq_true_iff.trans (and_iff_left_of_imp fun _ => Nat.le_of_lt_succ n.isLt).symm

/-- R135 item 7: the bound on the temperature, without a subtraction as the model writes it and as the rule states it. -/
theorem two_pow_le_add_bias_iff (width bias : Nat) :
    2 ^ width ≤ 32768 + bias ↔ (2 : Int) ^ width - 1 - (bias : Int) ≤ 32767 := by
  have hcast : ((2 ^ width : Nat) : Int) = 2 ^ width := Nat.cast_pow 2 width
  omega

/-- The model's items of admission (R135) as propositions. -/
theorem admitted_iff (c : Cfg) : c.admitted = true ↔
    1 ≤ c.toleranceUs.toNat ∧
    (c.shortUs.toNat < c.longUs.toNat ∧ c.shortUs.toNat + 2 * c.toleranceUs.toNat ≤ c.longUs.toNat + 1) ∧
    c.preLenOk = true ∧
    (1 ≤ c.frameBits ∧ c.frameBits ≤ c.accWidth ∧ c.accWidth ≤ 65535) ∧
    (c.idWidth ≤ 24 ∧ c.idShift + c.idWidth ≤ c.frameBits) ∧
    (c.pWidth ≤ 16 ∧ c.pShift + c.pWidth ≤ c.frameBits) ∧
    (c.tShift + c.tWidth ≤ c.frameBits ∧ c.tempBias ≤ 32768 ∧ 2 ^ c.tWidth ≤ 32768 + c.tempBias) ∧
    c.checkLawOk = true := by
  simp only [Cfg.admitted, Bool.and_eq_true, decide_eq_true_eq, and_assoc]

/-- Giving an admitted configuration another `PREAMBLE_LEN` and `CHECK` puts only items 3 and 8 at stake (R135). -/
theorem admitted_with_iff {c : Cfg} (h : c.admitted = true) (p : PreambleLen) (chk : CheckSel) :
    Cfg.admitted { c with preambleLen := p, checkSel := chk } = true ↔
      Cfg.preLenOk { c with preambleLen := p, checkSel := chk } = true ∧
        Cfg.CheckLaw { c with preambleLen := p, checkSel := chk } := by
  obtain ⟨htol, hgap, -, hframe, hid, hp, ht, -⟩ := (admitted_iff c).mp h
  rw [admitted_iff, checkLawOk_iff]
  constructor
  · rintro ⟨-, -, hpre, -, -, -, -, hlaw⟩
    exact ⟨hpre, hlaw⟩
  · rintro ⟨hpre, hlaw⟩
    exact ⟨htol, hgap, hpre, hframe, hid, hp, ht, hlaw⟩

/-- Settles O18: the decided items are the rule's, `SAMPLE` is admitted and so meets the items that its open parameters
leave alone, and the fetch refuses a command before it is decoded. -/
theorem admissionIsItsEightItems : Obligations.AdmissionIsItsEightItems := by
  refine ⟨fun c => ?_, fun n chk => ?_, fun s w rest hadm hin => ?_⟩
  · rw [admitted_iff, preLenOk_iff, checkLawOk_iff, two_pow_le_add_bias_iff, and_assoc]
    rfl
  · rw [admitted_with_iff sample_admitted]
    exact and_congr_left' decide_eq_true_iff
  · obtain ⟨hrefused, -⟩ := stepRunsTheDecodedCommand s w rest hin
    exact hrefused hadm

end Sys2Proof.Machine
end
